-- ==== Sys2Proof/Word.lean ====
section
/-! DEFINITION. The widths of the block: bytes, the eight-byte bitmap, the 3-bit cursor (00_scope.md R4, R5). -/

namespace Sys2Proof

/-- An unsigned 8-bit value, bits numbered 7 down to 0 (R5). -/
abbrev Byte := BitVec 8

/-- Eight bytes: a logical bitmap `L[0..7]`, or a physical layout; `FB_LEN = 8` (R4, R8). -/
abbrev Bitmap := Vector Byte 8

/-- A Frame Buffer index, a row line number or a column line number, 0..7 (R23). -/
abbrev Index := Fin 8

/-- The level of one pin: `true` is high (1), `false` is low (0) (R16). -/
abbrev Level := Bool

end Sys2Proof
end

