-- ==== Sys2Proof/Config.lean ====
section
/-! DEFINITION. The parameters of the block and its host (00_scope.md R4): what an implementation fixes, and the free values. -/

namespace Sys2Proof

/-- `REV_HIGH`: what the 5-bit reversal does with bits 7:5 (R54). -/
inductive RevHigh where
  | keep
  | clear
  deriving DecidableEq, Repr

/-- `TMODE`: who invokes TICK (R14, R105). -/
inductive TMode where
  | internal
  | external
  deriving DecidableEq, Repr

/-- `SETPOINT_DOWN`: what SET_POINT does under Down (R67). -/
inductive PointDown where
  | mirror
  | noop
  deriving DecidableEq, Repr

/-- `SCROLL_PRESHIFT`: 3, or its alternative 2 (R86). -/
inductive Preshift where
  | three
  | two
  deriving DecidableEq, Repr

/-- The OPEN parameters of R4, "an argument of the model". `font` lists glyph table rows by table offset; a row is 5 bits wide
(R79: "a pattern 5 bits wide in bits 4:0"). -/
structure Config where
  revHigh   : RevHigh
  rowActive : Level
  tmode     : TMode
  tTick     : Nat
  oriReset  : Byte
  fbReset   : Bitmap
  pointDown : PointDown
  preshift  : Preshift
  fontLast  : Nat
  font      : List (Nat × BitVec 5)
  rowPin    : Vector Nat 8
  colPin    : Vector Nat 8
  deriving DecidableEq, Repr

namespace Config

/-- `REV_WIDTH`, fixed at 5 (R4, R53). -/
def revWidth : Nat := 5

/-- `MAX_SCROLL_LEN` (R4, R85). -/
def maxScrollLen : Nat := 20

/-- `SUBFRAMES` per glyph pair (R4, R88). -/
def subframes : Nat := 6

/-- The first code of the font table (R79: "starting at code 32"). -/
def fontFirst : Nat := 32

/-- Rows of one glyph (R79: "7 bytes"). -/
def glyphRows : Nat := 7

/-- FREE VALUE: the glyph table row at an offset that `Config.font` does not list (R79; 91_not_in_source.md N20). -/
opaque freeFontRow : Nat → BitVec 5

/-- FREE VALUE: how many turns of the other agents pass before the next timer expiry, for the n-th gap drawn (R30, R102). -/
opaque tickGap : Nat → Nat

/-- The spec's defaults (R4); `tmode` and the pin identifiers have none there (DESIGN CHOICE, log 2), `font` is empty (log 10). -/
def default : Config where
  revHigh   := .keep
  rowActive := true
  tmode     := .external
  tTick     := 1
  oriReset  := 0
  fbReset   := #v[0, 0, 0, 0, 0, 0, 0, 0]
  pointDown := .mirror
  preshift  := .three
  fontLast  := 126
  font      := []
  rowPin    := #v[0, 1, 2, 3, 4, 5, 6, 7]
  colPin    := #v[8, 9, 10, 11, 12, 13, 14, 15]

end Config

end Sys2Proof
end

