-- ==== Sys2Proof/Syntax.lean ====
section
/-! DEFINITION. The eight operations (30_encoding.md R34, R35), their textual form (R42) and the assembler's pseudo-operations (R43). -/

namespace Sys2Proof

/-- The repeat policy of SCROLL_TEXT (R35, R92). -/
inductive Policy where
  | once
  | forever
  deriving DecidableEq, Repr

/-- One operation with its operands (R34, R35). `dispMatrix none` is the null bitmap, which has no byte form (R38). -/
inductive Instr where
  | init
  | setOrientation (dir : Byte)
  | dispChar (ch : Byte)
  | dispMatrix (bitmap : Option Bitmap)
  | setPoint (x y : Byte) (on : Bool)
  | scrollText (text : List Byte) (speed : BitVec 16) (policy : Policy)
  | cancel
  | tick
  deriving DecidableEq, Repr

/-- The pseudo-operations of R43, "expanded by the assembler and never seen by the block". -/
inductive PseudoOp where
  | ticks (n : Nat)
  | frame
  | clear
  deriving DecidableEq, Repr

/-- R43: `TICKS n`, `FRAME` = `TICKS 8`, `CLEAR` = DISP_MATRIX of eight zero bytes. -/
def PseudoOp.expand : PseudoOp → List Instr
  | .ticks n => List.replicate n .tick
  | .frame   => List.replicate 8 .tick
  | .clear   => [.dispMatrix (some #v[0, 0, 0, 0, 0, 0, 0, 0])]

/-- One hexadecimal digit, upper case. -/
def hexDigit (n : Nat) : Char :=
  if n < 10 then Char.ofNat (48 + n) else Char.ofNat (55 + n)

/-- A bitmap byte as a two-digit hexadecimal number (R42). -/
def hexByte (b : Byte) : String :=
  String.ofList [hexDigit (b.toNat / 16), hexDigit (b.toNat % 16)]

/-- The textual form of a command (R42); a null bitmap is written `null`, as in vector V-X7 of 95_test_vectors.md. -/
def Instr.text : Instr → String
  | .init => "INIT"
  | .setOrientation dir => "SET_ORIENTATION " ++ toString dir.toNat
  | .dispChar ch => "DISP_CHAR " ++ toString ch.toNat
  | .dispMatrix none => "DISP_MATRIX null"
  | .dispMatrix (some bitmap) => "DISP_MATRIX " ++ String.intercalate " " (bitmap.toList.map hexByte)
  | .setPoint x y on =>
    "SET_POINT " ++ toString x.toNat ++ ", " ++ toString y.toNat ++ ", " ++ (if on then "on" else "off")
  | .scrollText text speed policy =>
    "SCROLL_TEXT " ++ (match policy with | .once => "once" | .forever => "forever") ++ ", " ++ toString speed.toNat
      ++ ", \"" ++ String.ofList (text.map fun ch => Char.ofNat ch.toNat) ++ "\""
  | .cancel => "CANCEL"
  | .tick => "TICK"

end Sys2Proof
end

