-- ==== Sys2Proof/WellFormed.lean ====
section
/-! DEFINITION. Which operations have a byte form (30_encoding.md R35, R36, R38). -/

namespace Sys2Proof

/-- An operation the command format can spell: the bitmap is not null (R38: "the byte format cannot express them") and the text
is "a sequence of 0 to 255" codes (R35). Every other operand is in range by its type. -/
def Instr.wellFormed : Instr → Bool
  | .init => true
  | .setOrientation _ => true
  | .dispChar _ => true
  | .dispMatrix bitmap => bitmap.isSome
  | .setPoint _ _ _ => true
  | .scrollText text _ _ => decide (text.length ≤ 255)
  | .cancel => true
  | .tick => true

/-- The check as a proposition. -/
abbrev Instr.WellFormed (i : Instr) : Prop := i.wellFormed = true

end Sys2Proof
end

