-- ==== Sys2Proof/Decode.lean ====
section
/-! DEFINITION. The command format: decoder and encoder (30_encoding.md R36 to R41). -/

namespace Sys2Proof

/-- Why bytes spell no command (R39, R40, R41). -/
inductive Reject where
  /-- opcode byte 0x08..0xFF (R39) -/
  | opcode (byte : Byte)
  /-- policy byte 0x02..0xFF (R40) -/
  | policy (byte : Byte)
  /-- "A command cut short by the end of the input" (R41) -/
  | truncated
  deriving DecidableEq, Repr

/-- The format of a command (R36). -/
inductive Format where
  | op
  | opB
  | opB3
  | opB8
  | opVar
  deriving DecidableEq, Repr

/-- One row of the opcode table of R37. -/
structure OpcodeRow where
  opcode   : Byte
  mnemonic : String
  format   : Format
  deriving DecidableEq, Repr

/-- The opcode numbers (R37). -/
def opcodeTable : List OpcodeRow :=
  [⟨0x00, "INIT", .op⟩, ⟨0x01, "SET_ORIENTATION", .opB⟩, ⟨0x02, "DISP_CHAR", .opB⟩, ⟨0x03, "DISP_MATRIX", .opB8⟩,
   ⟨0x04, "SET_POINT", .opB3⟩, ⟨0x05, "SCROLL_TEXT", .opVar⟩, ⟨0x06, "CANCEL", .op⟩, ⟨0x07, "TICK", .op⟩]

/-- The length in bytes a format fixes before any `len` (R37, R41): SCROLL_TEXT is `5 + len`. -/
def Format.fixedLength : Format → Nat
  | .op => 1
  | .opB => 2
  | .opB3 => 4
  | .opB8 => 9
  | .opVar => 5

/-- `policy` is `once` when its byte is 0x00 and `forever` when it is 0x01; others spell no command (R38, R40). -/
def decodePolicy (b : Byte) : Except Reject Policy :=
  if b = 0 then .ok .once else if b = 1 then .ok .forever else .error (.policy b)

/-- The operands of SCROLL_TEXT after its opcode byte (R37, R38, R41): policy, speed high byte first, len, then len codes. -/
def decodeScroll : List Byte → Except Reject (Instr × List Byte)
  | p :: hi :: lo :: len :: rest =>
    match decodePolicy p with
    | .error e => .error e
    | .ok policy =>
      if rest.length < len.toNat then .error .truncated
      else .ok (.scrollText (rest.take len.toNat) (hi ++ lo) policy, rest.drop len.toNat)
  | _ => .error .truncated

/-- One command off the front of a byte sequence, with the bytes that follow it (R36 to R41). -/
def decode : List Byte → Except Reject (Instr × List Byte)
  | [] => .error .truncated
  | op :: args =>
    match op.toNat with
    | 0 => .ok (.init, args)
    | 1 =>
      match args with
      | dir :: rest => .ok (.setOrientation dir, rest)
      | _ => .error .truncated
    | 2 =>
      match args with
      | ch :: rest => .ok (.dispChar ch, rest)
      | _ => .error .truncated
    | 3 =>
      match args with
      | b0 :: b1 :: b2 :: b3 :: b4 :: b5 :: b6 :: b7 :: rest =>
        .ok (.dispMatrix (some #v[b0, b1, b2, b3, b4, b5, b6, b7]), rest)
      | _ => .error .truncated
    | 4 =>
      match args with
      | x :: y :: on :: rest => .ok (.setPoint x y (on != 0), rest)
      | _ => .error .truncated
    | 5 => decodeScroll args
    | 6 => .ok (.cancel, args)
    | 7 => .ok (.tick, args)
    | _ => .error (.opcode op)

/-- The bytes of the longest command: SCROLL_TEXT with 255 codes (R37). -/
def maxCommandBytes : Nat := 260

/-- The bytes of an opcode-table word: byte k is bits 8k+7..8k, every bit above `nbits` is 0. -/
def tableBytes (nbits w : Nat) : List Byte :=
  (List.range maxCommandBytes).map fun k => BitVec.ofNat 8 ((w % 2 ^ nbits) >>> (8 * k))

/-- The operation the decoder reads from a table word. -/
def decodeTableWord (nbits w : Nat) : Option Instr :=
  match decode (tableBytes nbits w) with
  | .ok (i, _) => some i
  | .error _ => none

/-- Exactly the bytes of the command a table word spells; where it spells none, the `nbits / 8` bytes as they stand. -/
def commandBytes (nbits w : Nat) : List Byte :=
  match decode (tableBytes nbits w) with
  | .ok (_, rest) => (tableBytes nbits w).take (maxCommandBytes - rest.length)
  | .error _ => (tableBytes nbits w).take (nbits / 8)

/-- The byte of a repeat policy (R38). -/
def encodePolicy : Policy → Byte
  | .once => 0x00
  | .forever => 0x01

/-- The command bytes of an operation (R37, R38). A null bitmap has no byte form (R38): no bytes. -/
def encode : Instr → List Byte
  | .init => [0x00]
  | .setOrientation dir => [0x01, dir]
  | .dispChar ch => [0x02, ch]
  | .dispMatrix none => []
  | .dispMatrix (some bitmap) => 0x03 :: bitmap.toList
  | .setPoint x y on => [0x04, x, y, if on then 0x01 else 0x00]
  | .scrollText text speed policy =>
    [0x05, encodePolicy policy, speed.extractLsb' 8 8, speed.extractLsb' 0 8, BitVec.ofNat 8 text.length] ++ text
  | .cancel => [0x06]
  | .tick => [0x07]

/-- The row of `opcodeTable` an operation's bytes carry (R37). -/
def opcodeOf : Instr → Byte
  | .init => 0x00
  | .setOrientation _ => 0x01
  | .dispChar _ => 0x02
  | .dispMatrix _ => 0x03
  | .setPoint _ _ _ => 0x04
  | .scrollText _ _ _ => 0x05
  | .cancel => 0x06
  | .tick => 0x07

/-- The length of an operation's command (R36, R37, R41), the text's length added for SCROLL_TEXT. -/
def commandLength : Instr → Nat
  | .init => 1
  | .setOrientation _ => 2
  | .dispChar _ => 2
  | .dispMatrix _ => 9
  | .setPoint _ _ _ => 4
  | .scrollText text _ _ => 5 + text.length
  | .cancel => 1
  | .tick => 1

end Sys2Proof
end

