-- ==== Sys2Proof/Machine/State.lean ====
section
/-! DEFINITION. The state of the block and its host (10_state.md R7 to R21), the reasons a step can stop, and the state at reset. -/

namespace Sys2Proof.Machine

/-- Whether INIT has configured the 16 pins as outputs (43_control_ops.md R74). -/
inductive PinMode where
  | unconfigured
  | output
  deriving DecidableEq, Repr

/-- Where a sub-frame of SCROLL_TEXT stands: before its cancellation check (R91), or holding the frame it pushed (R90). -/
inductive AnimPhase where
  | check
  | hold
  deriving DecidableEq, Repr

/-- The Scroll Animator while SCROLL_TEXT runs (44_host_software.md R84): `glyphs` is the flat glyph buffer GB, `count` the number n
of characters, `pair` is p, `sub` is k, `regs` the registers W[0..6]. -/
structure Animation where
  policy : Policy
  speed  : BitVec 16
  glyphs : List Byte
  count  : Nat
  pair   : Nat
  sub    : Nat
  regs   : Vector (BitVec 16) 7
  phase  : AnimPhase
  deriving DecidableEq, Repr

/-- One byte write to the Frame Buffer that has not landed yet: index and byte (R59, R71). -/
abbrev FbWrite := Index × Byte

/-- The block raises "no exception, trap or fault of any kind" (60_exceptions.md R97): there is no fault to name. Safe: nothing is
lost, since no rule of the spec stops the hardware. -/
inductive Fault where
  deriving DecidableEq, Repr

/-- The cases the spec itself gives no meaning (00_scope.md R5, "refused"). All are safe: the model stops where hardware might go on. -/
inductive Refusal where
  /-- Raised by `exec` for an instruction without a meaning; every instruction has one, so nothing raises it. Safe. -/
  | notModelled (mnemonic : String)
  /-- Raised by every operation but INIT and CANCEL while INITED = 0 (R78). Safe. -/
  | beforeInit
  /-- Raised by INIT and TICK when two lines share a pin identifier (R107). Safe. -/
  | pinsShared
  /-- Raised by DISP_CHAR and SCROLL_TEXT for a code outside the font (R81). Safe. -/
  | charOutsideFont (code : Byte)
  /-- Raised by SCROLL_TEXT of the empty string with policy forever (R95). Safe. -/
  | emptyScrollForever
  /-- Raised by the fetch when the next bytes spell no command (R39, R40, R41). Safe. -/
  | invalidCommand (why : Reject)
  deriving DecidableEq, Repr

/-- The machine's state. The first six fields after `cfg` are the block's (R7), then the host's CANCEL (R20), the collaborators INIT
engages (R74), the inputs that decide which agent moves next (R30), and the foreground's work (R59, R71, R84). -/
structure State where
  /-- the parameters (R4); no step writes them -/
  cfg : Config
  /-- Frame Buffer (R8) -/
  fb : Bitmap
  /-- Scan Cursor (R10) -/
  cur : BitVec 3
  /-- Orientation (R13) -/
  ori : Byte
  /-- INITED (R15) -/
  inited : Bool
  /-- bit r is the level on row line r (R16) -/
  row : BitVec 8
  /-- bit c is the level on column line c (R16) -/
  col : BitVec 8
  /-- the host flag CANCEL (R20) -/
  cancel : Bool
  /-- the pins as `configurePin` left them (R74) -/
  pinMode : PinMode
  /-- the period given to `schedule`, none while nothing is scheduled (R74, R104) -/
  timer : Option Nat
  /-- model's own: turns of the other agents before the next expiry (log 6) -/
  untilTick : Nat
  /-- model's own: gaps laid down for later expiries; empty means free (log 6) -/
  tickGaps : List Nat
  /-- model's own: gaps drawn so far, the argument of the free value (log 6) -/
  expiries : Nat
  /-- model's own: the canceller's calls to come, each as foreground turns before it (log 7) -/
  cancels : List Nat
  /-- the host's command bytes still to be performed (R36) -/
  commands : List Byte
  /-- byte writes of the operation in progress, oldest first (R59, R71) -/
  pending : List FbWrite
  /-- the SCROLL_TEXT in progress (R84) -/
  anim : Option Animation
  deriving DecidableEq, Repr

/-- The machine before the first INIT (R21): INITED 0, pins not configured, nothing scheduled, nothing running. Every register the
spec leaves unspecified there is zero (DESIGN CHOICE, log 3), and no step reads it before INIT. -/
def State.reset : State where
  cfg       := Config.default
  fb        := #v[0, 0, 0, 0, 0, 0, 0, 0]
  cur       := 0
  ori       := 0
  inited    := false
  row       := 0
  col       := 0
  cancel    := false
  pinMode   := .unconfigured
  timer     := none
  untilTick := 0
  tickGaps  := []
  expiries  := 0
  cancels   := []
  commands  := []
  pending   := []
  anim      := none

end Sys2Proof.Machine
end

