-- ==== Sys2Proof/Machine/Ops.lean ====
section
/-! DEFINITION. Named operations over the Frame Buffer, the pins, the timer service and the INITED check (00_scope.md R5). -/

namespace Sys2Proof.Machine

/-- A byte from its bits, `f k` being bit k (R5). -/
def byteOfBits (f : Nat → Bool) : Byte :=
  BitVec.ofBoolListLE [f 0, f 1, f 2, f 3, f 4, f 5, f 6, f 7]

/-- `v | (1 << i)` or `v & ~(1 << i)` (R65). -/
def setBit (v : Byte) (i : Nat) (b : Bool) : Byte :=
  if b then v ||| (1#8 <<< i) else v &&& ~~~(1#8 <<< i)

/-- `7 - i` on an index 0..7 (R23). -/
def mirror (i : Index) : Index := ⟨7 - i.val, by omega⟩

/-- The cursor as an index. -/
def cursorIndex (c : BitVec 3) : Index := ⟨c.toNat, c.isLt⟩

/-! The Frame Buffer: `FB[i]` and `FB[i] <- v` are the only memory primitives (R5). -/

def readFb (s : State) (i : Index) : Byte := s.fb[i]

def writeFb (s : State) (i : Index) (v : Byte) : State := { s with fb := s.fb.set i.val v }

/-- The eight byte writes of a bitmap, index 0 first (R59). -/
def bitmapWrites (bitmap : Bitmap) : List FbWrite :=
  (List.finRange 8).map fun i => (i, bitmap[i])

/-! The pins (R16, R106). -/

/-- One of the 16 lines. -/
inductive Line where
  | row (r : Index)
  | col (c : Index)
  deriving DecidableEq, Repr

/-- One `writePin(pin, level)` call (R106). -/
abbrev PinWrite := Line × Level

/-- A level stays until the next write of that pin (R16); every write succeeds (R99). -/
def writePin (s : State) : PinWrite → State
  | (.row r, level) => { s with row := setBit s.row r.val level }
  | (.col c, level) => { s with col := setBit s.col c.val level }

def writePins (s : State) (ws : List PinWrite) : State := ws.foldl writePin s

/-- `ROW[r] <- inactive` for r in 0..7, ascending (R44 step 1, R45). -/
def rowsOff (cfg : Config) : List PinWrite :=
  (List.finRange 8).map fun r => (.row r, !cfg.rowActive)

/-- `COL <- v`: the eight writes `COL[c] <- v[c]`, ascending (R5, R45). -/
def columnWrites (v : Byte) : List PinWrite :=
  (List.finRange 8).map fun c => (.col c, v.getLsbD c.val)

/-- `ROW[r] <- active` (R16). -/
def rowOn (cfg : Config) (r : Index) : PinWrite := (.row r, cfg.rowActive)

/-- The row byte with no line active (R21). -/
def rowsInactive (cfg : Config) : BitVec 8 := if cfg.rowActive then 0x00 else 0xFF

/-- The row byte with exactly line `r` active (R18). -/
def rowOnly (cfg : Config) (r : Index) : BitVec 8 := setBit (rowsInactive cfg) r.val cfg.rowActive

/-- Whether row line `r` is at `ROW_ACTIVE` (R16). -/
def rowIsActive (s : State) (r : Index) : Bool := s.row.getLsbD r.val == s.cfg.rowActive

/-- `Lit(r, c)`: the row line active and the column line low (R17). -/
def lit (s : State) (r c : Index) : Bool := rowIsActive s r && !s.col.getLsbD c.val

/-- The 16 identifiers are pairwise distinct (R107). -/
abbrev pinsDistinct (cfg : Config) : Prop := (cfg.rowPin.toList ++ cfg.colPin.toList).Nodup

/-! Who may step when (R78, R107). -/

/-- `require INITED = 1`, else refused (R78). -/
def requireInited (s : State) (k : Host.Outcome State Fault Refusal) : Host.Outcome State Fault Refusal :=
  if s.inited then k else .refused .beforeInit

/-- Two lines sharing a pin is `refused` (R107). -/
def requirePins (s : State) (k : Host.Outcome State Fault Refusal) : Host.Outcome State Fault Refusal :=
  if pinsDistinct s.cfg then k else .refused .pinsShared

/-! The timer service (R74, R104). -/

/-- Take the next gap: the first laid down, else a free one (log 6). -/
def drawGap (s : State) : State :=
  match s.tickGaps with
  | g :: gs => { s with untilTick := g, tickGaps := gs, expiries := s.expiries + 1 }
  | [] => { s with untilTick := Config.tickGap s.expiries, expiries := s.expiries + 1 }

/-- `if TMODE = INTERNAL: schedule(T_TICK, TICK)` (R73). A timer already running keeps its countdown: one tick source (R75, log 12). -/
def scheduleTimer (s : State) : State :=
  match s.cfg.tmode, s.timer with
  | .internal, none => { drawGap s with timer := some s.cfg.tTick }
  | .internal, some _ => s
  | .external, _ => s

/-- The pins become outputs (R74). -/
def configurePins (s : State) : State := { s with pinMode := .output }

/-! Staging the byte writes of an operation (R59, R71). -/

def stageWrites (s : State) (ws : List FbWrite) : State := { s with pending := ws }

end Sys2Proof.Machine
end

