-- ==== Sys2Proof/Machine/Flags.lean ====
section
/-! DEFINITION. The block "has no condition flags" (10_state.md R19); the one flag of the system is the host's CANCEL (R20, R94). -/

namespace Sys2Proof.Machine

/-- Set CANCEL (R94). -/
def raiseCancel (s : State) : State := { s with cancel := true }

/-- Clear CANCEL: the animator when it aborts (R91), and initialization (R21). -/
def clearCancel (s : State) : State := { s with cancel := false }

end Sys2Proof.Machine
end

