-- ==== Sys2Proof/Machine/Control.lean ====
section
/-! DEFINITION. INIT and SET_ORIENTATION (43_control_ops.md). -/

namespace Sys2Proof.Machine

/-- The pin writes of INIT: rows inactive, then columns high (R73). -/
def initPinWrites (cfg : Config) : List PinWrite := rowsOff cfg ++ columnWrites 0xFF

/-- The registers INIT writes (R73). -/
def resetRegisters (s : State) : State :=
  { s with fb := s.cfg.fbReset, ori := s.cfg.oriReset, cur := 0, inited := true }

/-- INIT, one foreground step (R73, R74); CANCEL is 0 after it (R21, log 4). A second INIT does what the first does (R75). -/
def execInit (s : State) : Host.Outcome State Fault Refusal :=
  requirePins s <|
    .next (scheduleTimer (clearCancel (resetRegisters (writePins (configurePins s) (initPinWrites s.cfg)))))

/-- SET_ORIENTATION: all 8 bits of `dir`, any value; ORI only (R76, R77). -/
def execSetOrientation (dir : Byte) (s : State) : Host.Outcome State Fault Refusal :=
  requireInited s <| .next { s with ori := dir }

end Sys2Proof.Machine
end

