-- ==== Sys2Proof/Machine/Operands.lean ====
section
/-! DEFINITION. Operand forms: orientations and the Orientation Transform (41_orientation_transform.md), the coordinate remapper
(42_set_point.md), the font and the scroll frames (44_host_software.md). -/

namespace Sys2Proof.Machine

/-- The four legal orientations (R13). -/
inductive Orientation where
  | normal
  | down
  | left
  | right
  deriving DecidableEq, Repr

/-- Normal = 0, Down = 1, Left = 2, Right = 3; 4..255 unsupported (R13). -/
def orientationOf (ori : Byte) : Option Orientation :=
  match ori.toNat with
  | 0 => some .normal
  | 1 => some .down
  | 2 => some .left
  | 3 => some .right
  | _ => none

/-! The transform. -/

/-- `rev5(b)`: bit k is bit 4 - k for k in 0..4 (R53); bits 7:5 pass through under KEEP and are 0 under CLEAR (R54). -/
def rev5 (cfg : Config) (b : Byte) : Byte :=
  byteOfBits fun k =>
    if k < Config.revWidth then b.getLsbD (Config.revWidth - 1 - k)
    else match cfg.revHigh with
      | .keep => b.getLsbD k
      | .clear => false

/-- `REV(M)[i] = rev5(M[7 - i])` (R55). -/
def rev (cfg : Config) (m : Bitmap) : Bitmap := Vector.ofFn fun i => rev5 cfg m[mirror i]

/-- Bit `i` of row `j` of a bitmap, rows 0..7. -/
def bitAt (m : Bitmap) (j i : Nat) : Bool := (m.toList.getD j 0).getLsbD i

/-- `TR(L)[m][j] = L[j][7 - m]` (R56). -/
def transpose (l : Bitmap) : Bitmap := Vector.ofFn fun m => byteOfBits fun j => bitAt l j (7 - m.val)

/-- `TRinv(T)[j][i] = T[7 - i][j]` (R63); no operation applies it. -/
def transposeInv (t : Bitmap) : Bitmap := Vector.ofFn fun j => byteOfBits fun i => bitAt t (7 - i) j.val

/-- The transform of a legal orientation (R57). -/
def orient (cfg : Config) (o : Orientation) (l : Bitmap) : Bitmap :=
  match o with
  | .normal => l
  | .down => rev cfg l
  | .right => transpose l
  | .left => rev cfg (transpose l)

/-- `XF(o, L)`; none for an unsupported orientation (R57). -/
def xf (cfg : Config) (ori : Byte) (l : Bitmap) : Option Bitmap :=
  (orientationOf ori).map fun o => orient cfg o l

/-! The coordinate remapper. -/

/-- The byte index and the bit that SET_POINT changes, none where it is a no-op; the range check comes first (R65 to R69). -/
def pointTarget (cfg : Config) (ori x y : Byte) : Option (Index × Nat) :=
  if h : x.toNat ≤ 4 ∧ y.toNat ≤ 7 then
    match orientationOf ori with
    | some .normal => some (⟨y.toNat, by omega⟩, 4 - x.toNat)
    | some .down =>
      match cfg.pointDown with
      | .mirror => some (⟨7 - y.toNat, by omega⟩, x.toNat)
      | .noop => none
    | some .left => none
    | some .right => none
    | none => none
  else none

/-! The font and the Glyph Compositor. -/

/-- A code the font covers: 32..FONT_LAST (R79). -/
def charSupported (cfg : Config) (ch : Byte) : Bool :=
  decide (Config.fontFirst ≤ ch.toNat) && decide (ch.toNat ≤ cfg.fontLast)

/-- The font table byte at an offset: the row listed there, else a free one, "5 bits wide in bits 4:0" (R79). -/
def fontByte (cfg : Config) (offset : Nat) : Byte :=
  ((cfg.font.lookup offset).getD (Config.freeFontRow offset)).zeroExtend 8

/-- `glyph(ch)[k]`, the table byte at `(ch - 32) * 7 + k` (R79). -/
def glyphRow (cfg : Config) (ch : Byte) (k : Nat) : Byte :=
  fontByte cfg ((ch.toNat - Config.fontFirst) * Config.glyphRows + k)

/-- `compose(ch)`: seven rows shifted left by one, then a blank row (R80). -/
def compose (cfg : Config) (ch : Byte) : Bitmap :=
  Vector.ofFn fun k => if k.val < Config.glyphRows then glyphRow cfg ch k.val <<< 1 else 0

/-- The Glyph Compositor with its destination buffer, an abstract operand that may be null (R38). Null is a silent no-op: nothing is
written and no font row is read (R81, R98, log 23). Into a buffer it puts `compose(ch)` (R80); a code outside the font is `refused` (R81). -/
def composeGlyph (cfg : Config) (ch : Byte) (destination : Option Bitmap) : Except Refusal (Option Bitmap) :=
  match destination with
  | none => .ok none
  | some _ => if charSupported cfg ch then .ok (some (compose cfg ch)) else .error (.charOutsideFont ch)

/-- A buffer of eight zero bytes, what a host routine hands the compositor. -/
def blankBitmap : Bitmap := Vector.replicate 8 0

/-! The Scroll Animator's buffers. -/

/-- `SCROLL_PRESHIFT` as a number (R86). -/
def preshiftBits (cfg : Config) : Nat :=
  match cfg.preshift with
  | .three => 3
  | .two => 2

/-- The flat glyph buffer: one blank glyph, then each character's seven rows pre-shifted (R86). -/
def glyphBuffer (cfg : Config) (text : List Byte) : List Byte :=
  List.replicate Config.glyphRows 0 ++
    text.flatMap fun ch => (List.range Config.glyphRows).map fun k => glyphRow cfg ch k <<< preshiftBits cfg

/-- Row `r` of pair `p`: high byte the current glyph's row, low byte the next glyph's (R87). -/
def pairWord (glyphs : List Byte) (p r : Nat) : BitVec 16 :=
  glyphs.getD (Config.glyphRows * p + r) 0 ++ glyphs.getD (Config.glyphRows * (p + 1) + r) 0

/-- The seven registers of a pair (R87). -/
def pairRegs (glyphs : List Byte) (p : Nat) : Vector (BitVec 16) 7 :=
  Vector.ofFn fun r => pairWord glyphs p r.val

/-- The displayable frame: the upper 8 bits of each register, and a zero eighth row (R88, R89). -/
def frameOf (regs : Vector (BitVec 16) 7) : Bitmap :=
  Vector.ofFn fun r => if h : r.val < 7 then (regs[r.val]'h).extractLsb' 8 8 else 0

/-- Every register shifted left by one bit (R88). -/
def shiftRegs (regs : Vector (BitVec 16) 7) : Vector (BitVec 16) 7 := Vector.map (fun w : BitVec 16 => w <<< 1) regs

end Sys2Proof.Machine
end

