-- ==== Sys2Proof/Machine/Display.lean ====
section
/-! DEFINITION. DISP_MATRIX (41_orientation_transform.md R58 to R61) and DISP_CHAR (44_host_software.md R83). -/

namespace Sys2Proof.Machine

/-- The body of DISP_MATRIX after its INITED check: the transform is computed in the private buffer `pending`, and its eight bytes land
one at a time in later foreground turns (R58, R59); null and an unsupported orientation change nothing (R60, R61). -/
def displayMatrix (bitmap : Option Bitmap) (s : State) : State :=
  match bitmap with
  | none => s
  | some l =>
    match xf s.cfg s.ori l with
    | none => s
    | some p => stageWrites s (bitmapWrites p)

/-- DISP_MATRIX (R58). -/
def execDispMatrix (bitmap : Option Bitmap) (s : State) : Host.Outcome State Fault Refusal :=
  requireInited s <| .next (displayMatrix bitmap s)

/-- DISP_CHAR: the compositor fills a private buffer, DISP_MATRIX shows it (R83); a code outside the font is `refused` (R81). -/
def execDispChar (ch : Byte) (s : State) : Host.Outcome State Fault Refusal :=
  requireInited s <|
    match composeGlyph s.cfg ch (some blankBitmap) with
    | .ok bitmap => .next (displayMatrix bitmap s)
    | .error why => .refused why

end Sys2Proof.Machine
end

