-- ==== Sys2Proof/Machine/Point.lean ====
section
/-! DEFINITION. SET_POINT (42_set_point.md R65 to R71). -/

namespace Sys2Proof.Machine

/-- SET_POINT: reads the byte and computes its new value; the write of that byte is the next foreground step (R65, R70, R71). -/
def execSetPoint (x y : Byte) (on : Bool) (s : State) : Host.Outcome State Fault Refusal :=
  requireInited s <|
    match pointTarget s.cfg s.ori x y with
    | none => .next s
    | some (idx, bit) => .next (stageWrites s [(idx, setBit (readFb s idx) bit on)])

end Sys2Proof.Machine
end

