-- ==== Sys2Proof/Machine/Refresh.lean ====
section
/-! DEFINITION. The Refresh Multiplexer: TICK (40_refresh_multiplexer.md), and the timer interrupt that runs it (60_exceptions.md R101). -/

namespace Sys2Proof.Machine

/-- The pin writes of one tick in order: eight rows off, eight columns, one row on (R44, R45, R106). -/
def tickPinWrites (cfg : Config) (c : Index) (pattern : Byte) : List PinWrite :=
  rowsOff cfg ++ columnWrites pattern ++ [rowOn cfg c]

/-- The byte a tick puts on the columns: `~FB[7 - CUR]` (R44, R46). -/
def scannedPattern (s : State) : Byte := ~~~ readFb s (mirror (cursorIndex s.cur))

/-- One tick, atomic (R31, R44): the pin writes, then `CUR <- (CUR + 1) mod 8` (R48). -/
def refreshTick (s : State) : Host.Outcome State Fault Refusal :=
  requireInited s <| requirePins s <|
    .next { writePins s (tickPinWrites s.cfg (cursorIndex s.cur) (scannedPattern s)) with cur := s.cur + 1 }

/-- TICK as an operation: invoked by the caller in either mode (R44, R52). -/
def execTick (s : State) : Host.Outcome State Fault Refusal := refreshTick s

/-- A timer expiry: its only effect is one tick, entry and return save and restore nothing (R101, R103); the next gap is drawn. -/
def timerTick (s : State) : Host.Outcome State Fault Refusal := refreshTick (drawGap s)

end Sys2Proof.Machine
end

