-- ==== Sys2Proof/Machine/Scroll.lean ====
section
/-! DEFINITION. SCROLL_TEXT and CANCEL (44_host_software.md R84 to R96). -/

namespace Sys2Proof.Machine

/-- The animator at the first sub-frame of the first pair (R84). -/
def startAnimation (cfg : Config) (text : List Byte) (speed : BitVec 16) (policy : Policy) : Animation where
  policy := policy
  speed  := speed
  glyphs := glyphBuffer cfg text
  count  := text.length
  pair   := 0
  sub    := 0
  regs   := pairRegs (glyphBuffer cfg text) 0
  phase  := .check

/-- The animator at the first sub-frame of pair `p` (R87). -/
def loadPair (a : Animation) (p : Nat) : Animation :=
  { a with pair := p, sub := 0, regs := pairRegs a.glyphs p, phase := .check }

/-- After a sub-frame's delay: the registers shift, then the next sub-frame, the next pair, the next pass, or the return (R88, R92). -/
def nextSubframe (a : Animation) : Option Animation :=
  if a.sub + 1 < Config.subframes then
    some { a with sub := a.sub + 1, regs := shiftRegs a.regs, phase := .check }
  else if a.pair + 1 < a.count then some (loadPair a (a.pair + 1))
  else
    match a.policy with
    | .once => none
    | .forever => some (loadPair a 0)

/-- One foreground turn of the animator (R84): at the check it aborts if CANCEL is set (R91), else pushes the frame through
DISP_MATRIX (R88); at the end of the delay it goes on to the next sub-frame. -/
def animationStep (a : Animation) (s : State) : State :=
  match a.phase with
  | .check =>
    if s.cancel then { clearCancel s with anim := none }
    else { displayMatrix (some (frameOf a.regs)) s with anim := some { a with phase := .hold } }
  | .hold => { s with anim := nextSubframe a }

/-- SCROLL_TEXT: too long returns at once (R85); a code outside the font is `refused` (R81); the empty string returns under once and
is `refused` under forever (R95); else the animation starts and blocks the foreground (R84). -/
def execScrollText (text : List Byte) (speed : BitVec 16) (policy : Policy) (s : State) :
    Host.Outcome State Fault Refusal :=
  requireInited s <|
    if Config.maxScrollLen < text.length then .next s
    else
      match text.find? (fun ch => !charSupported s.cfg ch) with
      | some ch => .refused (.charOutsideFont ch)
      | none =>
        match text, policy with
        | [], .once => .next s
        | [], .forever => .refused .emptyScrollForever
        | _ :: _, _ => .next { s with anim := some (startAnimation s.cfg text speed policy) }

/-- CANCEL sets the host flag and does nothing else (R94); allowed before INIT (R78). -/
def execCancel (s : State) : Host.Outcome State Fault Refusal := .next (raiseCancel s)

end Sys2Proof.Machine
end

