-- ==== Sys2Proof/Machine/Dispatch.lean ====
section
/-! DEFINITION. One arm per operation (30_encoding.md R34). -/

namespace Sys2Proof.Machine

def exec (i : Instr) (s : State) : Host.Outcome State Fault Refusal :=
  match i with
  | .init => Sys2Proof.Machine.execInit s
  | .setOrientation dir => Sys2Proof.Machine.execSetOrientation dir s
  | .dispChar ch => Sys2Proof.Machine.execDispChar ch s
  | .dispMatrix bitmap => Sys2Proof.Machine.execDispMatrix bitmap s
  | .setPoint x y on => Sys2Proof.Machine.execSetPoint x y on s
  | .scrollText text speed policy => Sys2Proof.Machine.execScrollText text speed policy s
  | .cancel => Sys2Proof.Machine.execCancel s
  | .tick => Sys2Proof.Machine.execTick s

end Sys2Proof.Machine
end

