-- ==== Sys2Proof/Machine/Schedule.lean ====
section
/-! DEFINITION. Which agent moves next (20_memory.md R30, 60_exceptions.md R100 to R105), the foreground's work in progress, and fetching
the next command. -/

namespace Sys2Proof.Machine

/-- The agents that step (R30, R100, R103). -/
inductive Agent where
  | multiplexer
  | canceller
  | foreground
  deriving DecidableEq, Repr

/-- A timer expiry is due (R101): only while a timer is scheduled, so never under EXTERNAL (R105). -/
def tickDue (s : State) : Bool := s.timer.isSome && s.untilTick == 0

/-- The canceller agent's next call is due (R94). -/
def cancelDue (s : State) : Bool := s.cancels.head? == some 0

/-- The tick may come between any two foreground steps (R30, R102). -/
def agentTurn (s : State) : Agent :=
  if tickDue s then .multiplexer else if cancelDue s then .canceller else .foreground

/-- A turn of an agent other than the multiplexer brings the next expiry one turn nearer. -/
def nearerTick (s : State) : State :=
  { s with untilTick := if s.timer.isSome then s.untilTick - 1 else s.untilTick }

/-- A foreground turn brings the next expiry and the canceller's next call one turn nearer. -/
def passTurn (s : State) : State :=
  { nearerTick s with cancels := match s.cancels with
      | [] => []
      | g :: gs => (g - 1) :: gs }

/-- The canceller's turn: it sets CANCEL and does nothing else (R94). -/
def cancellerTurn (s : State) : State := raiseCancel { nearerTick s with cancels := s.cancels.tail }

/-- The next step of the operation the foreground is in: the oldest byte write (R59, R71), else the animator (R84); none when the
foreground is free. -/
def continueOperation (s : State) : Option State :=
  match s.pending with
  | (i, v) :: ws => some (writeFb (stageWrites s ws) i v)
  | [] => s.anim.map fun a => animationStep a s

/-- What the foreground finds next in its command bytes (R36, R41). -/
inductive Fetched where
  | nothing
  | command (i : Instr) (rest : List Byte)
  | invalid (why : Reject)
  deriving DecidableEq, Repr

/-- Read the next command (R41); bytes that spell none are invalid (R39, R40). -/
def fetch (s : State) : Fetched :=
  match s.commands with
  | [] => .nothing
  | b :: bs =>
    match decode (b :: bs) with
    | .ok (i, rest) => .command i rest
    | .error why => .invalid why

/-- The state with the foreground free, the next turn the foreground's, and `bytes` before its other commands; the turn it takes gives
the countdowns back. -/
def loadCommand (s : State) (bytes : List Byte) : State :=
  { s with
    commands := bytes ++ s.commands
    pending := []
    anim := none
    untilTick := if s.timer.isSome then s.untilTick + 1 else s.untilTick
    cancels := match s.cancels with
      | [] => []
      | g :: gs => (g + 1) :: gs }

end Sys2Proof.Machine
end

