-- ==== Sys2Proof/Machine/Step.lean ====
section
/-! DEFINITION. One step of the system: one turn of one agent (20_memory.md R30), and placing a command where the next step fetches it. -/

namespace Sys2Proof.Machine

/-- One foreground turn: the operation in progress goes on; a free foreground performs its next command, or idles (R30, R36). -/
def foregroundTurn (s : State) : Host.Outcome State Fault Refusal :=
  match continueOperation s with
  | some t => .next t
  | none =>
    match fetch s with
    | .nothing => .next s
    | .command i rest => exec i { s with commands := rest }
    | .invalid why => .refused (.invalidCommand why)

/-- One step: one whole tick, one call of the canceller, or one foreground step (R30). -/
def step (s : State) : Host.Outcome State Fault Refusal :=
  match agentTurn s with
  | .multiplexer => timerTick s
  | .canceller => .next (cancellerTurn s)
  | .foreground => foregroundTurn (passTurn s)

/-- `s` with the command of a table word at the front of the foreground's commands and the foreground's turn next (log 1). -/
def State.withFetchWord (s : State) (nbits w : Nat) : State := loadCommand s (commandBytes nbits w)

end Sys2Proof.Machine
end

