-- ==== Sys2Proof/Safety.lean ====
section
/-! DEFINITION. The terms claims use: runs of steps and of ticks, what a step does, quiet stretches, the invariant, torn buffers, and what
an observer counts. -/

namespace Sys2Proof.Machine

/-! Runs. -/

/-- `k` steps of the system, stopping at the first refusal. -/
def run (k : Nat) (s : State) : Host.Outcome State Fault Refusal := Host.Core.run Sys2Proof.core k s

/-- `n` consecutive TICK operations (30_encoding.md R43). -/
def ticks : Nat → State → Host.Outcome State Fault Refusal
  | 0, s => .next s
  | n + 1, s =>
    match exec .tick s with
    | .next t => ticks n t
    | .fault r => .fault r
    | .refused r => .refused r

/-- What the next step of a state does. -/
inductive Activity where
  | timerTick
  | cancellerCall
  | byteWrite (i : Index) (v : Byte)
  | animation
  | command (i : Instr)
  | idle
  | invalid (why : Reject)
  deriving DecidableEq, Repr

/-- The activity of the next step (20_memory.md R30). -/
def activity (s : State) : Activity :=
  match agentTurn s with
  | .multiplexer => .timerTick
  | .canceller => .cancellerCall
  | .foreground =>
    match s.pending, s.anim with
    | (i, v) :: _, _ => .byteWrite i v
    | [], some _ => .animation
    | [], none =>
      match fetch s with
      | .nothing => .idle
      | .command i _ => .command i
      | .invalid why => .invalid why

/-- The foreground is in no operation: its next turn performs a command. -/
abbrev ForegroundFree (s : State) : Prop := s.pending = [] ∧ s.anim = none

/-- The next `k` turns are all the foreground's. -/
abbrev Quiet (k : Nat) (s : State) : Prop :=
  (s.timer.isSome = true → k ≤ s.untilTick) ∧ (∀ g ∈ s.cancels.head?, k ≤ g)

/-- The state after `k` foreground turns as far as the other agents' countdowns go. -/
def afterTurns (k : Nat) (s : State) : State := passTurn^[k] s

/-! Torn buffers (R59). -/

/-- Of the byte writes of `p` over `old`, the first `n` have landed and the others are still to come (R59). -/
def Torn (old p : Bitmap) (n : Nat) (s : State) : Prop :=
  s.pending = (bitmapWrites p).drop n ∧ ∀ i : Index, s.fb[i] = if i.val < n then p[i] else old[i]

/-! The invariant. -/

/-- The animator's buffers hold what 44_host_software.md R86 to R88 say: the registers are those of the pair, shifted once per sub-frame. -/
structure Animation.Sound (a : Animation) : Prop where
  count_pos : 0 < a.count
  count_le : a.count ≤ Config.maxScrollLen
  length_glyphs : a.glyphs.length = (a.count + 1) * Config.glyphRows
  pair_lt : a.pair < a.count
  sub_lt : a.sub < Config.subframes
  regs_eq : ∀ (r : Nat) (h : r < 7), a.regs[r] = pairWord a.glyphs a.pair r <<< a.sub

/-- What every reachable state satisfies: after INIT the pins are distinct outputs and the timer runs exactly under INTERNAL (R74, R107);
either no row line is active and the cursor is 0, or exactly the row line before the cursor is (R18); only an initialized machine has
byte writes or an animation in progress (R78), at most eight writes (R59), and a sound animator. -/
structure State.Inv (s : State) : Prop where
  pins : s.inited = true → pinsDistinct s.cfg
  pinMode : s.pinMode = .output ↔ s.inited = true
  timer : s.timer = if s.inited && s.cfg.tmode == .internal then some s.cfg.tTick else none
  rows : s.inited = true →
    (s.row = rowsInactive s.cfg ∧ s.cur = 0) ∨ s.row = rowOnly s.cfg (cursorIndex (s.cur - 1))
  pending : s.pending ≠ [] → s.inited = true
  pending_le : s.pending.length ≤ 8
  anim : ∀ a, s.anim = some a → s.inited = true ∧ a.Sound

/-! What an observer counts. -/

/-- In how many of the next `n` tick slots the LED is lit (40_refresh_multiplexer.md R51). -/
def litSlots (r c : Index) : Nat → State → Nat
  | 0, _ => 0
  | n + 1, s =>
    match exec .tick s with
    | .next t => (if lit t r c then 1 else 0) + litSlots r c n t
    | .fault _ => 0
    | .refused _ => 0

/-- The next step pushes a frame of the animator through DISP_MATRIX (R88). -/
def pushesFrame (s : State) : Bool :=
  match activity s, s.anim with
  | .animation, some a => a.phase == .check && !s.cancel
  | _, _ => false

/-- How many frames the next `k` steps push (R93). -/
def framesPushed : Nat → State → Nat
  | 0, _ => 0
  | k + 1, s =>
    match step s with
    | .next t => (if pushesFrame s then 1 else 0) + framesPushed k t
    | .fault _ => 0
    | .refused _ => 0

/-- How many of the next `k` steps are the foreground's, up to the first refusal (20_memory.md R30). -/
def foregroundTurns : Nat → State → Nat
  | 0, _ => 0
  | k + 1, s =>
    match step s with
    | .next t => (if agentTurn s = .foreground then 1 else 0) + foregroundTurns k t
    | .fault _ => 0
    | .refused _ => 0

/-- The frame of sub-frame `k` of pair `p`: `({cur[r], next[r]} << k)[15:8]` in rows 0..6 and a zero row 7 (R88, R89). -/
def scrollFrame (glyphs : List Byte) (p k : Nat) : Bitmap :=
  Vector.ofFn fun r => if r.val < 7 then (pairWord glyphs p r.val <<< k).extractLsb' 8 8 else 0

/-- The transpose as the loop of 41_orientation_transform.md R56: from eight zero bytes, set bit j of row 7 - i for each set bit i of row j. -/
def transposeLoop (l : Bitmap) : Bitmap :=
  (List.finRange 8).foldl (fun t j =>
    (List.finRange 8).foldl (fun t (i : Index) =>
      if (l[j]).getLsbD i.val then t.set (7 - i.val) (t[mirror i] ||| (1#8 <<< j.val)) else t) t)
    #v[0, 0, 0, 0, 0, 0, 0, 0]

/-- `L` with the bit of a pixel set to `on`: bit `4 - x` of `L[y]` (42_set_point.md R72). -/
def withPixel (l : Bitmap) (x : Nat) (y : Index) (on : Bool) : Bitmap := l.set y.val (setBit l[y] (4 - x) on)

/-- The block's registers replaced, all else kept. -/
def withRegisters (s : State) (fb : Bitmap) (cur : BitVec 3) (ori : Byte) (row col : BitVec 8) : State :=
  { s with fb := fb, cur := cur, ori := ori, row := row, col := col }

end Sys2Proof.Machine
end

