-- ==== Sys2Proof/Certificates/Slice0/Obligations.lean ====
section
/-! DEFINITION. The statements for the provers. Each docstring names the rule of spec/ it formalises, and the log entry of a choice it rests on. -/

open Sys2Proof Sys2Proof.Machine

/-! Reset and INIT. -/

/-- 10_state.md R21: before the first INIT, INITED is 0, the pins are not configured, nothing is scheduled or running. That no command waits
(`commands = []`: a program is loaded from outside) is the model's choice, log 1. The values of the unspecified registers are the model's
(log 3) and are not stated here. -/
def Obligations.ResetIsBeforeInit : Prop :=
  State.reset.inited = false ∧ State.reset.pinMode = .unconfigured ∧ State.reset.timer = none ∧
    ForegroundFree State.reset ∧ State.reset.commands = []

/-- 43_control_ops.md R73, 10_state.md R21 (decisions D11, D12, D13, D29 of the spec; CANCEL: log 4): INIT completes whenever the pins are
distinct, gives every register its value after INIT, schedules the timer exactly under INTERNAL (a running timer keeps its countdown, log 12),
and leaves everything else as it was. -/
def Obligations.InitSetsEveryRegister : Prop :=
  ∀ s : State, pinsDistinct s.cfg →
    ∃ t, exec .init s = .next t ∧
      t.cur = 0 ∧ t.fb = s.cfg.fbReset ∧ t.ori = s.cfg.oriReset ∧ t.inited = true ∧
      (∀ r : Index, t.row.getLsbD r.val = !s.cfg.rowActive) ∧ (∀ c : Index, t.col.getLsbD c.val = true) ∧
      t.cancel = false ∧ t.pinMode = .output ∧
      t.timer = (match s.cfg.tmode with
        | .internal => some (s.timer.getD s.cfg.tTick)
        | .external => s.timer) ∧
      (s.cfg.tmode = .external ∨ s.timer.isSome = true →
        t.untilTick = s.untilTick ∧ t.tickGaps = s.tickGaps ∧ t.expiries = s.expiries) ∧
      t.cfg = s.cfg ∧ t.cancels = s.cancels ∧ t.commands = s.commands ∧ t.pending = s.pending ∧ t.anim = s.anim

/-- 43_control_ops.md R73 (corner case), 10_state.md R18: INIT leaves no row line active and no LED lit, and a step that is no tick, of the
timer or of a TICK command, keeps it so: after INIT and before the first TICK no LED is lit. -/
def Obligations.InitLeavesNothingLit : Prop :=
  (∀ (s t : State) (r c : Index), exec .init s = .next t → rowIsActive t r = false ∧ lit t r c = false) ∧
  (∀ s t : State, (∀ r : Index, rowIsActive s r = false) → step s = .next t → activity s ≠ .timerTick → activity s ≠ .command .tick →
    ∀ r c : Index, rowIsActive t r = false ∧ lit t r c = false)

/-- 43_control_ops.md R75 (decision D20; one tick source: log 12): a second INIT writes the same values again and changes nothing else. -/
def Obligations.SecondInitChangesNothing : Prop :=
  ∀ s t : State, exec .init s = .next t → exec .init t = .next t

/-- 60_exceptions.md R107 (decision D2; log 9): with two lines on one pin identifier INIT is refused, and TICK too. -/
def Obligations.SharedPinsAreRefused : Prop :=
  ∀ s : State, ¬ pinsDistinct s.cfg →
    exec .init s = .refused .pinsShared ∧ (s.inited = true → exec .tick s = .refused .pinsShared)

/-- 43_control_ops.md R78 (decision D17): before INIT every operation but INIT and CANCEL is refused. -/
def Obligations.BeforeInitOperationsAreRefused : Prop :=
  ∀ (s : State) (i : Instr), s.inited = false → i ≠ .init → i ≠ .cancel → exec i s = .refused .beforeInit

/-- 70_reset_and_hazards.md R112 (decision D17): before INIT no step reads FB, CUR, ORI, ROW or COL. With those five replaced by anything, a
step is refused alike, or it is the INIT and gives the same state, or it gives the same state but for the five. -/
def Obligations.BeforeInitNoRegisterIsRead : Prop :=
  ∀ (s : State) (fb : Bitmap) (cur : BitVec 3) (ori : Byte) (row col : BitVec 8), s.Inv → s.inited = false →
    (∀ r, step s = .refused r → step (withRegisters s fb cur ori row col) = .refused r) ∧
    (∀ t, step s = .next t →
      (t.inited = true ∧ step (withRegisters s fb cur ori row col) = .next t) ∨
      (t.inited = false ∧ step (withRegisters s fb cur ori row col) = .next (withRegisters t fb cur ori row col)))

/-! TICK. -/

/-- 40_refresh_multiplexer.md R44, R47 (bit and line numbering: decision D2 of the spec): TICK completes on every initialized machine with distinct
pins; afterwards exactly the row line of the old cursor is active, the columns carry the complement of FB[7 - CUR], the cursor is one on, and nothing
else has changed. -/
def Obligations.TickShowsOneRow : Prop :=
  ∀ s : State, s.inited = true → pinsDistinct s.cfg →
    ∃ t, exec .tick s = .next t ∧
      (∀ r : Index, rowIsActive t r = decide (r = cursorIndex s.cur)) ∧
      t.col = ~~~ s.fb[mirror (cursorIndex s.cur)] ∧ t.cur = s.cur + 1 ∧
      t = { s with row := t.row, col := t.col, cur := t.cur }

/-- 40_refresh_multiplexer.md R46: the tick inverts all eight bits, `COL[k] = 1 - FB[7 - c][k]` for every k. -/
def Obligations.TickInvertsAllEightBits : Prop :=
  ∀ (s : State) (k : Index), s.inited = true → pinsDistinct s.cfg →
    ∃ t, exec .tick s = .next t ∧ t.col.getLsbD k.val = !(s.fb[mirror (cursorIndex s.cur)]).getLsbD k.val

/-- 40_refresh_multiplexer.md R48: the cursor after a tick is `(CUR before + 1) mod 8`; over eight consecutive ticks it takes every value exactly
once and is back where it began; no step but a tick (or INIT, which resets it, R11) changes it. -/
def Obligations.CursorAdvancesModuloEight : Prop :=
  (∀ s : State, s.inited = true → pinsDistinct s.cfg →
    ∃ t, exec .tick s = .next t ∧ t.cur.toNat = (s.cur.toNat + 1) % 8) ∧
  (∀ (s : State) (r : Index), s.inited = true → pinsDistinct s.cfg →
    (∃! k, k < 8 ∧ ∃ t, ticks k s = .next t ∧ cursorIndex t.cur = r) ∧ ∃ t, ticks 8 s = .next t ∧ t.cur = s.cur) ∧
  (∀ s t : State, step s = .next t → activity s ≠ .timerTick → activity s ≠ .command .tick → activity s ≠ .command .init →
    t.cur = s.cur)

/-- 40_refresh_multiplexer.md R49 and vectors V-T4, V-T5: the tick does not depend on ORI or on the previous levels of ROW and COL. -/
def Obligations.TickIgnoresOrientationAndOldLevels : Prop :=
  ∀ (s t : State) (ori : Byte) (row col : BitVec 8), exec .tick s = .next t →
    exec .tick { s with ori := ori, row := row, col := col } = .next { t with ori := ori }

/-- 60_exceptions.md R106, 40_refresh_multiplexer.md R44, R45 (decision D15): a tick's pin writes are 17, eight rows off ascending, eight columns
ascending, one row on; and the tick is exactly those writes and the cursor's advance. -/
def Obligations.TickMakesSeventeenPinWrites : Prop :=
  ∀ (s t : State), exec .tick s = .next t →
    let ws := tickPinWrites s.cfg (cursorIndex s.cur) (scannedPattern s)
    ws.length = 17 ∧
      (∀ r : Index, ws[r.val]? = some (.row r, !s.cfg.rowActive)) ∧
      (∀ c : Index, ws[8 + c.val]? = some (.col c, !(s.fb[mirror (cursorIndex s.cur)]).getLsbD c.val)) ∧
      ws[16]? = some (.row (cursorIndex s.cur), s.cfg.rowActive) ∧
      t = { writePins s ws with cur := s.cur + 1 }

/-- 40_refresh_multiplexer.md R50, 70_reset_and_hazards.md R114: after any prefix of a tick's pin writes, begun with at most one row line active, an
active row line is either the old one with the columns still as they were, or the new one with its own pattern on the columns. -/
def Obligations.TickNeverGhosts : Prop :=
  ∀ (s : State) (old r : Index) (n : Nat), (∀ q : Index, rowIsActive s q = true → q = old) →
    let v := writePins s ((tickPinWrites s.cfg (cursorIndex s.cur) (scannedPattern s)).take n)
    rowIsActive v r = true →
      (r = old ∧ v.col = s.col) ∨ (r = cursorIndex s.cur ∧ v.col = ~~~ s.fb[mirror (cursorIndex s.cur)])

/-- 40_refresh_multiplexer.md R51, 20_memory.md R25: over eight consecutive ticks with no write in between, the LED (r, c) is lit in exactly one
slot when `FB[7 - r][c] = 1` and in none when it is 0: duty cycle 1/8 or 0. -/
def Obligations.FullScanLightsEachSetBitOnce : Prop :=
  ∀ (s : State) (r c : Index), s.inited = true → pinsDistinct s.cfg →
    (∃ t, ticks 8 s = .next t ∧ t.fb = s.fb) ∧
      litSlots r c 8 s = if (s.fb[mirror r]).getLsbD c.val then 1 else 0

/-- 20_memory.md R33: a byte in FB[i] is shown by the next tick that executes with `CUR = 7 - i`, at most eight ticks away. -/
def Obligations.WrittenByteIsShownWithinEightTicks : Prop :=
  ∀ (s : State) (i : Index), s.inited = true → pinsDistinct s.cfg →
    ∃ k, k < 8 ∧ ∃ t u, ticks k s = .next t ∧ cursorIndex t.cur = mirror i ∧ exec .tick t = .next u ∧
      u.col = ~~~ s.fb[i] ∧ rowIsActive u (mirror i) = true

/-! SET_ORIENTATION. -/

/-- 43_control_ops.md R76, R77, 70_reset_and_hazards.md R119 (decisions D10, D24): SET_ORIENTATION stores all 8 bits of any `dir` and touches nothing
else; the Frame Buffer is not redrawn. -/
def Obligations.SetOrientationStoresAnyValue : Prop :=
  ∀ (s : State) (dir : Byte), s.inited = true → exec (.setOrientation dir) s = .next { s with ori := dir }

/-! DISP_MATRIX and the transform. -/

/-- 41_orientation_transform.md R57, R58, R59: under a legal orientation DISP_MATRIX completes; left to itself the foreground then writes the eight
bytes in eight steps, after which the Frame Buffer is `XF(ORI, L)` and nothing else has changed (but the countdowns of the other agents, log 6, 7). -/
def Obligations.DispMatrixStoresTransformedBitmap : Prop :=
  ∀ (s : State) (l : Bitmap), s.inited = true → s.ori.toNat ≤ 3 → Quiet 8 s →
    ∃ t p, exec (.dispMatrix (some l)) s = .next t ∧ xf s.cfg s.ori l = some p ∧
      run 8 t = .next { afterTurns 8 s with fb := p, pending := [] }

/-- 41_orientation_transform.md R60: a null bitmap changes nothing. -/
def Obligations.NullBitmapIsIgnored : Prop :=
  ∀ s : State, s.inited = true → exec (.dispMatrix none) s = .next s

/-- 41_orientation_transform.md R61, 42_set_point.md R65, 43_control_ops.md R77 (decision D24): with ORI in 4..255 the display operations change nothing. -/
def Obligations.UnsupportedOrientationDisablesDisplay : Prop :=
  ∀ (s : State), s.inited = true → 3 < s.ori.toNat →
    (∀ l, exec (.dispMatrix (some l)) s = .next s) ∧ (∀ x y on, exec (.setPoint x y on) s = .next s) ∧
      (∀ ch, charSupported s.cfg ch = true → exec (.dispChar ch) s = .next s)

/-- 41_orientation_transform.md R59, 20_memory.md R28, R29 (decision D14): while `8 - n` byte writes are still to come, a step is a tick or a canceller
call, which leaves the buffer and the writes as they are, or it writes byte n, and only that byte. -/
def Obligations.TornBufferStep : Prop :=
  ∀ (old p : Bitmap) (n : Nat) (h : n < 8) (s t : State), Torn old p n s → step s = .next t →
    ((activity s = .timerTick ∨ activity s = .cancellerCall) ∧ Torn old p n t) ∨
      (activity s = .byteWrite ⟨n, h⟩ p[n] ∧ Torn old p (n + 1) t ∧
        t = { passTurn s with fb := s.fb.set n p[n], pending := s.pending.tail })

/-- 41_orientation_transform.md R59, 70_reset_and_hazards.md R115 (decision D14): under every interleaving, from a DISP_MATRIX on, the Frame Buffer holds the
first n bytes new and the others old for some n in 0..8, until all eight have landed. -/
def Obligations.BufferIsOldOrNewThroughout : Prop :=
  ∀ (s t u : State) (l p : Bitmap) (k : Nat), xf s.cfg s.ori l = some p → exec (.dispMatrix (some l)) s = .next t →
    run k t = .next u →
      (∃ n, n ≤ 8 ∧ Torn s.fb p n u) ∨ ∃ j v, j < k ∧ run j t = .next v ∧ Torn s.fb p 8 v

/-- 41_orientation_transform.md R57 (bit table; REV_HIGH: decision D4): where each logical bit lands under each orientation. -/
def Obligations.OrientationBitTable : Prop :=
  ∀ (cfg : Config) (l : Bitmap),
    xf cfg 0 l = some l ∧
    (∃ p, xf cfg 1 l = some p ∧ ∀ j i : Index,
      (i.val ≤ 4 → (p[mirror j]).getLsbD (4 - i.val) = (l[j]).getLsbD i.val) ∧
      (5 ≤ i.val → (p[mirror j]).getLsbD i.val = ((cfg.revHigh == .keep) && (l[j]).getLsbD i.val))) ∧
    (∃ p, xf cfg 3 l = some p ∧ ∀ j i : Index, (p[mirror i]).getLsbD j.val = (l[j]).getLsbD i.val) ∧
    (∃ p, xf cfg 2 l = some p ∧ ∀ j i : Index,
      (j.val ≤ 4 → (p[i]).getLsbD (4 - j.val) = (l[j]).getLsbD i.val) ∧
      (5 ≤ j.val → (p[i]).getLsbD j.val = ((cfg.revHigh == .keep) && (l[j]).getLsbD i.val))) ∧
    (∀ ori : Byte, 3 < ori.toNat → xf cfg ori l = none)

/-- 41_orientation_transform.md R53: `rev5(b)[k] = b[4 - k]` for k in 0..4, so bit 0 and bit 4, bit 1 and bit 3 change places and bit 2 stays; bits 5..7 are
not reversed (none takes the place of another; whether one survives is R54); the width is the parameter REV_WIDTH, 5. -/
def Obligations.RevFiveReversesLowFiveBits : Prop :=
  Config.revWidth = 5 ∧
  ∀ (cfg : Config) (b : Byte),
    (∀ k, k ≤ 4 → (rev5 cfg b).getLsbD k = b.getLsbD (4 - k)) ∧
    (rev5 cfg b).getLsbD 0 = b.getLsbD 4 ∧ (rev5 cfg b).getLsbD 4 = b.getLsbD 0 ∧
    (rev5 cfg b).getLsbD 1 = b.getLsbD 3 ∧ (rev5 cfg b).getLsbD 3 = b.getLsbD 1 ∧
    (rev5 cfg b).getLsbD 2 = b.getLsbD 2 ∧
    (∀ k, 5 ≤ k → k < 8 → (rev5 cfg b).getLsbD k = true → b.getLsbD k = true)

/-- 41_orientation_transform.md R55: `REV(M)[i] = rev5(M[7 - i])` for all eight rows. -/
def Obligations.RevReversesRowsAndBits : Prop :=
  ∀ (cfg : Config) (m : Bitmap) (i : Nat) (h : i < 8), (rev cfg m)[i] = rev5 cfg m[7 - i]

/-- 41_orientation_transform.md R56 (decision D5): the bit formula of the transpose agrees with the spec's loop. -/
def Obligations.TransposeMatchesTheLoop : Prop :=
  ∀ l : Bitmap, transpose l = transposeLoop l

/-- 41_orientation_transform.md R62: REV twice is the identity under KEEP and clears bits 7:5 under CLEAR. -/
def Obligations.ReversalTwiceRestores : Prop :=
  ∀ (cfg : Config) (m : Bitmap),
    (cfg.revHigh = .keep → rev cfg (rev cfg m) = m) ∧
    (cfg.revHigh = .clear → ∀ i : Index, (rev cfg (rev cfg m))[i] = m[i] &&& 0x1F)

/-- 41_orientation_transform.md R63: the inverse transpose undoes the transpose; REV then TRinv undoes Left under KEEP, and under CLEAR for bitmaps whose rows
5..7 are zero; two transposes are a half turn and four are the identity. -/
def Obligations.TransposeHasItsInverse : Prop :=
  ∀ (cfg : Config) (l : Bitmap),
    transposeInv (transpose l) = l ∧
    (cfg.revHigh = .keep → transposeInv (rev cfg (orient cfg .left l)) = l) ∧
    (cfg.revHigh = .clear → (∀ i : Index, 5 ≤ i.val → l[i] = 0) → transposeInv (rev cfg (orient cfg .left l)) = l) ∧
    (∀ m j : Index, ((transpose (transpose l))[m]).getLsbD j.val = (l[mirror m]).getLsbD (7 - j.val)) ∧
    transpose (transpose (transpose (transpose l))) = l

/-! SET_POINT. -/

/-- 42_set_point.md R66, R70, R71: under Normal, SET_POINT completes for x in 0..4 and y in 0..7, and one foreground step later bit `4 - x` of FB[y] is `on`;
the other 63 bits and all else (but the countdowns) are as before. -/
def Obligations.SetPointNormalWritesOneBit : Prop :=
  ∀ (s : State) (x y : Byte) (on : Bool), s.inited = true → s.ori = 0 → x.toNat ≤ 4 → y.toNat ≤ 7 → Quiet 1 s →
    ∃ t u, exec (.setPoint x y on) s = .next t ∧ run 1 t = .next u ∧
      (∀ i k : Index, (u.fb[i]).getLsbD k.val =
        if i.val = y.toNat ∧ k.val = 4 - x.toNat then on else (s.fb[i]).getLsbD k.val) ∧
      u = { afterTurns 1 s with fb := u.fb, pending := [] }

/-- 42_set_point.md R67 (decision D8): under Down with MIRROR it is bit `x` of FB[7 - y]; with NOOP nothing changes. -/
def Obligations.SetPointDownMirrorsOrDoesNothing : Prop :=
  ∀ (s : State) (x y : Byte) (on : Bool), s.inited = true → s.ori = 1 → x.toNat ≤ 4 → y.toNat ≤ 7 →
    (s.cfg.pointDown = .mirror → Quiet 1 s →
      ∃ t u, exec (.setPoint x y on) s = .next t ∧ run 1 t = .next u ∧
        (∀ i k : Index, (u.fb[i]).getLsbD k.val =
          if i.val = 7 - y.toNat ∧ k.val = x.toNat then on else (s.fb[i]).getLsbD k.val) ∧
        u = { afterTurns 1 s with fb := u.fb, pending := [] }) ∧
    (s.cfg.pointDown = .noop → exec (.setPoint x y on) s = .next s)

/-- 42_set_point.md R68, R69 (decisions D7, D9): out of range in every orientation, and under Right and Left, SET_POINT changes nothing. -/
def Obligations.SetPointNoOps : Prop :=
  ∀ (s : State) (x y : Byte) (on : Bool), s.inited = true →
    4 < x.toNat ∨ 7 < y.toNat ∨ s.ori = 2 ∨ s.ori = 3 → exec (.setPoint x y on) s = .next s

/-- 42_set_point.md R65 (corner cases), R71, 70_reset_and_hazards.md R120 (staging: log 5): whatever the operands, the orientation and the parameters, SET_POINT
changes nothing where `pointTarget` gives no target; where it gives byte `idx` and bit `bit`, that bit is among bits 4:0 and the one write staged is of byte `idx`, the
byte it holds with that bit set to `on`. -/
def Obligations.SetPointReachesOnlyLowFiveBits : Prop :=
  ∀ (s : State) (x y : Byte) (on : Bool), s.inited = true →
    (pointTarget s.cfg s.ori x y = none → exec (.setPoint x y on) s = .next s) ∧
    (∀ (idx : Index) (bit : Nat), pointTarget s.cfg s.ori x y = some (idx, bit) →
      bit ≤ 4 ∧ ∃ v : Byte, exec (.setPoint x y on) s = .next { s with pending := [(idx, v)] } ∧
        ∀ k, k < 8 → v.getLsbD k = if k = bit then on else (s.fb[idx]).getLsbD k)

/-- 42_set_point.md R72, R71 (decision D25; the write lands one foreground step later: log 5): with the Frame Buffer as DISP_MATRIX L left it, SET_POINT x, y, on gives the Frame Buffer of DISP_MATRIX L' where L' is L with bit
`4 - x` of L[y] set to `on`, under Normal and under Down with MIRROR. -/
def Obligations.SetPointAgreesWithDispMatrix : Prop :=
  ∀ (s : State) (l : Bitmap) (x y : Byte) (y' : Index) (on : Bool), s.inited = true →
    s.ori = 0 ∨ (s.ori = 1 ∧ s.cfg.pointDown = .mirror) → x.toNat ≤ 4 → y.toNat = y'.val → Quiet 1 s →
    xf s.cfg s.ori l = some s.fb →
      ∃ t p, exec (.setPoint x y on) s = .next t ∧ xf s.cfg s.ori (withPixel l x.toNat y' on) = some p ∧
        run 1 t = .next { afterTurns 1 s with fb := p, pending := [] }

/-- 42_set_point.md R70, R71, 30_encoding.md R36, 90_conflicts.md C4 (decisions D6, D25): the two commands `SET_POINT x, y, on` and `SET_POINT x, y, off` under Normal
take four steps (the model's cut: command bytes log 1, one step to compute and one to write log 5) and leave the pixel's bit 0 and the other 63 bits as they were; so a bit that was 0 is restored. -/
def Obligations.PointOnThenOffClearsOnlyThatBit : Prop :=
  ∀ (s : State) (x y : Byte) (rest : List Byte), s.inited = true → s.ori = 0 → x.toNat ≤ 4 → y.toNat ≤ 7 →
    ForegroundFree s → Quiet 4 s → s.commands = encode (.setPoint x y true) ++ encode (.setPoint x y false) ++ rest →
      ∃ u, run 4 s = .next u ∧ u = { afterTurns 4 s with fb := u.fb, commands := rest } ∧
        (∀ i k : Index, (u.fb[i]).getLsbD k.val =
          if i.val = y.toNat ∧ k.val = 4 - x.toNat then false else (s.fb[i]).getLsbD k.val)

/-! DISP_CHAR. -/

/-- 44_host_software.md R83: for a supported code under a legal orientation DISP_CHAR completes, and eight foreground steps later the Frame Buffer is
`XF(ORI, compose(ch))`; nothing else has changed (but the countdowns). -/
def Obligations.DispCharStoresComposedGlyph : Prop :=
  ∀ (s : State) (ch : Byte), s.inited = true → s.ori.toNat ≤ 3 → 32 ≤ ch.toNat → ch.toNat ≤ s.cfg.fontLast → Quiet 8 s →
    ∃ t p, exec (.dispChar ch) s = .next t ∧ xf s.cfg s.ori (compose s.cfg ch) = some p ∧
      run 8 t = .next { afterTurns 8 s with fb := p, pending := [] }

/-- 44_host_software.md R80: for every code of the font, `compose(ch)[k] = (glyph(ch)[k] << 1)[7:0]` for k in 0..6, the glyph's rows being those at
`(code - 32) * 7` in the font table, and `compose(ch)[7] = 0`. -/
def Obligations.ComposeShiftsSevenRowsAndBlanksTheEighth : Prop :=
  ∀ (cfg : Config) (ch : Byte), 32 ≤ ch.toNat → ch.toNat ≤ cfg.fontLast →
    (∀ k : Index, k.val < 7 → (compose cfg ch)[k] = fontByte cfg ((ch.toNat - 32) * 7 + k.val) <<< 1) ∧
      (compose cfg ch)[(7 : Index)] = 0

/-- 44_host_software.md R82: row 7 of a composed glyph is zero and every row uses bits 1..5 only, whatever the font. -/
def Obligations.ComposedGlyphUsesBitsOneToFive : Prop :=
  ∀ (cfg : Config) (ch : Byte) (r k : Index),
    ((compose cfg ch)[r]).getLsbD k.val = true → r.val < 7 ∧ 1 ≤ k.val ∧ k.val ≤ 5

/-- 44_host_software.md R81, 60_exceptions.md R98, 30_encoding.md R38 (decision D31): the Glyph Compositor ignores a null destination, whatever the code (log 23);
into a buffer it refuses a code outside the font, and so does DISP_CHAR, and SCROLL_TEXT of a text not too long (log 11). -/
def Obligations.CompositorIgnoresNullAndCodesOutsideTheFontAreRefused : Prop :=
  (∀ (cfg : Config) (ch : Byte), composeGlyph cfg ch none = .ok none) ∧
  (∀ (cfg : Config) (ch : Byte) (buffer : Bitmap),
    (32 ≤ ch.toNat ∧ ch.toNat ≤ cfg.fontLast → composeGlyph cfg ch (some buffer) = .ok (some (compose cfg ch))) ∧
    (ch.toNat < 32 ∨ cfg.fontLast < ch.toNat → composeGlyph cfg ch (some buffer) = .error (.charOutsideFont ch))) ∧
  ∀ s : State, s.inited = true →
    (∀ ch : Byte, ch.toNat < 32 ∨ s.cfg.fontLast < ch.toNat → exec (.dispChar ch) s = .refused (.charOutsideFont ch)) ∧
    (∀ (text : List Byte) (speed : BitVec 16) (policy : Policy), text.length ≤ 20 →
      (∃ ch ∈ text, ch.toNat < 32 ∨ s.cfg.fontLast < ch.toNat) →
        ∃ ch ∈ text, (ch.toNat < 32 ∨ s.cfg.fontLast < ch.toNat) ∧
          exec (.scrollText text speed policy) s = .refused (.charOutsideFont ch))

/-! SCROLL_TEXT and CANCEL. -/

/-- 44_host_software.md R84, R86, R87: a non-empty text of at most 20 supported codes starts the animator, sound, at the first sub-frame of the first pair;
nothing else changes in that step (that starting is a step of its own is the model's cut, log 5). -/
def Obligations.ScrollTextStartsTheAnimator : Prop :=
  ∀ (s : State) (text : List Byte) (speed : BitVec 16) (policy : Policy), s.inited = true → text ≠ [] → text.length ≤ 20 →
    (∀ ch ∈ text, charSupported s.cfg ch = true) →
      ∃ a : Animation, exec (.scrollText text speed policy) s = .next { s with anim := some a } ∧ a.Sound ∧
        a.policy = policy ∧ a.speed = speed ∧ a.glyphs = glyphBuffer s.cfg text ∧ a.count = text.length ∧
        a.pair = 0 ∧ a.sub = 0 ∧ a.phase = .check

/-- 44_host_software.md R85: a text of more than 20 characters returns at once and changes nothing. -/
def Obligations.OversizedTextReturnsAtOnce : Prop :=
  ∀ (s : State) (text : List Byte) (speed : BitVec 16) (policy : Policy), s.inited = true → 20 < text.length →
    exec (.scrollText text speed policy) s = .next s

/-- 44_host_software.md R95 (decision D32): the empty text returns at once under once and is refused under forever. -/
def Obligations.EmptyTextReturnsOrIsRefused : Prop :=
  ∀ (s : State) (speed : BitVec 16), s.inited = true →
    exec (.scrollText [] speed .once) s = .next s ∧
      exec (.scrollText [] speed .forever) s = .refused .emptyScrollForever

/-- 44_host_software.md R86, R79 (SCROLL_PRESHIFT: decision D27): the flat glyph buffer has `(n + 1) * 7` bytes, seven zero bytes first, then each glyph's rows, the font
table bytes at `(ch - 32) * 7 + k`, shifted left by the pre-shift, which is 3 or, as the alternative, 2. -/
def Obligations.GlyphBufferLayout : Prop :=
  ∀ (cfg : Config) (text : List Byte),
    (glyphBuffer cfg text).length = (text.length + 1) * 7 ∧
    (∀ k, k < 7 → (glyphBuffer cfg text)[k]? = some 0) ∧
    (∀ m k ch, text[m]? = some ch → 32 ≤ ch.toNat → k < 7 →
      (cfg.preshift = .three → (glyphBuffer cfg text)[7 * (m + 1) + k]? = some (fontByte cfg ((ch.toNat - 32) * 7 + k) <<< 3)) ∧
      (cfg.preshift = .two → (glyphBuffer cfg text)[7 * (m + 1) + k]? = some (fontByte cfg ((ch.toNat - 32) * 7 + k) <<< 2)))

/-- 44_host_software.md R88, R89, R96: at the check of sub-frame k of pair p, with CANCEL clear, the animator pushes the frame `({cur, next} << k)[15:8]`, row 7 zero,
through the orientation transform; under an unsupported orientation nothing is written, and the sub-frame goes on to its delay all the same. -/
def Obligations.SubframePushesItsFrame : Prop :=
  ∀ (s : State) (a : Animation), agentTurn s = .foreground → s.pending = [] → s.anim = some a → a.Sound →
    a.phase = .check → s.cancel = false →
      (∀ p, xf s.cfg s.ori (scrollFrame a.glyphs a.pair a.sub) = some p →
        step s = .next { passTurn s with pending := bitmapWrites p, anim := some { a with phase := .hold } }) ∧
      (3 < s.ori.toNat → step s = .next { passTurn s with anim := some { a with phase := .hold } })

/-- 44_host_software.md R91 (decision D29): at the check of a sub-frame with CANCEL set, the animator clears the flag and returns; the Frame Buffer keeps the
last frame. -/
def Obligations.CancelledSubframeReturns : Prop :=
  ∀ (s : State) (a : Animation), agentTurn s = .foreground → s.pending = [] → s.anim = some a → a.phase = .check →
    s.cancel = true → step s = .next { passTurn s with cancel := false, anim := none }

/-- 44_host_software.md R91: once CANCEL is set, the animator returns within the sub-frame it is in, at most ten foreground steps away (eight byte writes, one
delay, one check: log 5, 13), and pushes no further frame, however ticks and canceller calls fall between those steps; left to itself it returns within ten steps. -/
def Obligations.CancelIsSeenWithinOneSubframe : Prop :=
  ∀ s : State, s.Inv → s.anim.isSome = true → s.cancel = true →
    (∀ k, 10 ≤ foregroundTurns k s →
      ∃ j u, j ≤ k ∧ foregroundTurns j s ≤ 10 ∧ run j s = .next u ∧ u.anim = none ∧ framesPushed j s = 0) ∧
    (Quiet 10 s → ∃ k u, k ≤ 10 ∧ run k s = .next u ∧ u.anim = none ∧ framesPushed k s = 0)

/-- 44_host_software.md R87, R88, R92, R93: left to itself, SCROLL_TEXT of n characters with policy once pushes exactly 6n frames (ten foreground steps each:
the check, eight byte writes, the delay) and returns; the Frame Buffer then holds the last sub-frame of the last pair, and nothing else has changed. -/
def Obligations.ScrollOnceProducesSixFramesPerCharacter : Prop :=
  ∀ (s : State) (text : List Byte) (speed : BitVec 16), s.inited = true → s.ori.toNat ≤ 3 → ForegroundFree s → s.cancel = false →
    text ≠ [] → text.length ≤ 20 → (∀ ch ∈ text, charSupported s.cfg ch = true) → Quiet (60 * text.length) s →
      ∃ t p, exec (.scrollText text speed .once) s = .next t ∧
        framesPushed (60 * text.length) t = 6 * text.length ∧
        xf s.cfg s.ori (scrollFrame (glyphBuffer s.cfg text) (text.length - 1) 5) = some p ∧
        run (60 * text.length) t = .next { afterTurns (60 * text.length) s with fb := p }

/-- 44_host_software.md R92, R87: under forever the animation does not end while nobody calls CANCEL, however the ticks fall; and the delay of the last sub-frame of
the last pair is followed by the first sub-frame of the first pair, its registers loaded again (steps: log 5, 17). -/
def Obligations.ScrollForeverDoesNotReturn : Prop :=
  (∀ (s u : State) (a : Animation) (k : Nat), s.anim = some a → a.policy = .forever → s.cancel = false → s.cancels = [] →
    run k s = .next u → ∃ b, u.anim = some b ∧ b.policy = .forever ∧ b.glyphs = a.glyphs) ∧
  (∀ (s : State) (a : Animation), agentTurn s = .foreground → s.pending = [] → s.anim = some a → a.policy = .forever →
    a.phase = .hold → a.sub = 5 → a.pair + 1 = a.count →
      ∃ b : Animation, step s = .next { passTurn s with anim := some b } ∧
        b = { a with pair := 0, sub := 0, phase := .check, regs := b.regs } ∧
        ∀ (r : Nat) (h : r < 7), b.regs[r] = pairWord a.glyphs 0 r)

/-- 44_host_software.md R94, 43_control_ops.md R78: CANCEL completes in every state, also before INIT, and sets the flag and nothing else. -/
def Obligations.CancelSetsOnlyItsFlag : Prop :=
  ∀ s : State, exec .cancel s = .next { s with cancel := true }

/-! Steps of the system. -/

/-- 20_memory.md R30, 30_encoding.md R36: on the turn of a free foreground whose bytes decode to i, the step is exec of i after those bytes, with the other
agents' countdowns one turn on (log 6, 7). -/
def Obligations.StepRunsTheDecodedCommand : Prop :=
  ∀ (s : State) (i : Instr) (rest : List Byte), agentTurn s = .foreground → ForegroundFree s →
    decode s.commands = .ok (i, rest) → step s = exec i { passTurn s with commands := rest }

/-- The host's placing of a command (log 1): the very next step runs exactly that instruction, with the rest of the program after it. -/
def Obligations.FetchWordRunsItsInstruction : Prop :=
  ∀ (s : State) (nbits w : Nat) (i : Instr), decodeTableWord nbits w = some i →
    step (s.withFetchWord nbits w) = exec i { s with pending := [], anim := none }

/-- 30_encoding.md R39, R40, R41 (decision D16) and log 14: opcode bytes 08..FF and policy bytes 02..FF spell no command; on the turn of a free foreground,
bytes that spell none are refused, and no bytes at all leave it idle. -/
def Obligations.InvalidBytesAreRefusedAndNoBytesIdle : Prop :=
  (∀ (op : Byte) (rest : List Byte), 8 ≤ op.toNat → decode (op :: rest) = .error (.opcode op)) ∧
  (∀ (p hi lo len : Byte) (rest : List Byte), 2 ≤ p.toNat → decode (5 :: p :: hi :: lo :: len :: rest) = .error (.policy p)) ∧
  (∀ (s : State) (why : Reject), agentTurn s = .foreground → ForegroundFree s → s.commands ≠ [] →
    decode s.commands = .error why → step s = .refused (.invalidCommand why)) ∧
  (∀ s : State, agentTurn s = .foreground → ForegroundFree s → s.commands = [] → step s = .next (passTurn s))

/-- 60_exceptions.md R101, R103, 44_host_software.md R94: a due timer expiry is one tick and nothing else (the next gap is drawn, log 6); a due canceller call sets
CANCEL and nothing else. -/
def Obligations.OtherAgentsTakeTheirTurns : Prop :=
  (∀ s : State, s.timer.isSome = true → s.untilTick = 0 → step s = exec .tick (drawGap s)) ∧
  (∀ (s : State) (gs : List Nat), ¬ (s.timer.isSome = true ∧ s.untilTick = 0) → s.cancels = 0 :: gs →
    step s = .next { s with cancel := true, cancels := gs, untilTick := if s.timer.isSome then s.untilTick - 1 else s.untilTick })

/-- 70_reset_and_hazards.md R124, 60_exceptions.md R105 (decision D19; the gaps: log 6): weak fairness of the multiplexer. While a timer is scheduled, whatever the other
agents do, its tick is at most `untilTick` steps away. An INIT in between does not put it off, because a second INIT keeps the running timer's countdown: that is the
model's choice, log 12. -/
def Obligations.ScheduledTickCannotBePutOff : Prop :=
  ∀ s u : State, s.timer.isSome = true → run s.untilTick s = .next u → activity u = .timerTick

/-- 60_exceptions.md R101, R105: under EXTERNAL no step is a timer tick. -/
def Obligations.ExternalModeHasNoTimerTick : Prop :=
  ∀ s : State, s.Inv → s.cfg.tmode = .external → activity s ≠ .timerTick

/-- 10_state.md R9, R11, R12, R15, R16, R20, 60_exceptions.md R108: who writes what. A step changes the Frame Buffer only by a byte write, of that one byte, or
by INIT; the cursor and the pins only by a tick or INIT; ORI only by SET_ORIENTATION or INIT; INITED, the pin mode and the timer only by INIT; CANCEL only by its
writers; the parameters never. -/
def Obligations.EachRegisterHasItsWriters : Prop :=
  ∀ s t : State, step s = .next t →
    t.cfg = s.cfg ∧
    (∀ i v, activity s = .byteWrite i v → t.fb = s.fb.set i.val v) ∧
    ((∀ i v, activity s ≠ .byteWrite i v) → activity s ≠ .command .init → t.fb = s.fb) ∧
    (activity s ≠ .timerTick → activity s ≠ .command .tick → activity s ≠ .command .init →
      t.cur = s.cur ∧ t.row = s.row ∧ t.col = s.col) ∧
    ((∀ dir, activity s ≠ .command (.setOrientation dir)) → activity s ≠ .command .init → t.ori = s.ori) ∧
    (activity s ≠ .command .init → t.inited = s.inited ∧ t.pinMode = s.pinMode ∧ t.timer = s.timer) ∧
    (activity s ≠ .cancellerCall → activity s ≠ .animation → activity s ≠ .command .cancel → activity s ≠ .command .init →
      t.cancel = s.cancel)

/-- 41_orientation_transform.md R58, 42_set_point.md R65, 44_host_software.md R83, R84: the frame of the display operations. When DISP_MATRIX, DISP_CHAR or SET_POINT
goes on, only the staged byte writes may differ, at most eight of them beside a no-op; when SCROLL_TEXT goes on, only the animator. Every byte of the Frame Buffer reads as before. -/
def Obligations.DisplayOperationsFrame : Prop :=
  ∀ s t : State,
    (∀ i : Instr, (∃ l, i = .dispMatrix l) ∨ (∃ ch, i = .dispChar ch) ∨ (∃ x y on, i = .setPoint x y on) →
      exec i s = .next t → t = { s with pending := t.pending } ∧ (t.pending = s.pending ∨ t.pending.length ≤ 8)) ∧
    (∀ text speed policy, exec (.scrollText text speed policy) s = .next t → t = { s with anim := t.anim })

/-- 10_state.md R18, R21, 44_host_software.md R86 to R88, 60_exceptions.md R107, 43_control_ops.md R74: every step keeps the invariant. -/
def Obligations.StepKeepsTheInvariant : Prop :=
  ∀ s t : State, s.Inv → step s = .next t → t.Inv

/-- The state at reset satisfies the invariant. -/
def Obligations.ResetSatisfiesTheInvariant : Prop :=
  State.reset.Inv

/-! The command format. -/

/-- 30_encoding.md R36, R37, R38, R41: decoding the bytes of any operation that has a byte form gives it back, with every operand, and leaves what follows. -/
def Obligations.DecodeOfEncodeIsIdentity : Prop :=
  ∀ (i : Instr) (rest : List Byte), i.WellFormed → decode (encode i ++ rest) = .ok (i, rest)

/-- 30_encoding.md R36, R38, R41: what decodes is well formed and takes exactly its command's length; and its bytes are the encoder's, but for SET_POINT, whose
`on` may be any non-zero byte. -/
def Obligations.DecodedBytesAreTheCommand : Prop :=
  ∀ (bytes rest : List Byte) (i : Instr), decode bytes = .ok (i, rest) →
    i.WellFormed ∧ ∃ used, bytes = used ++ rest ∧ used.length = commandLength i ∧
      ((∀ x y on, i ≠ .setPoint x y on) → used = encode i) ∧
      (∀ x y on, i = .setPoint x y on → ∃ b : Byte, used = [4, x, y, b] ∧ on = (b != 0))

/-- 95_test_vectors.md section 2.5 (decision D16): sample commands, one per operation. -/
def Obligations.SampleCommandsDecode : Prop :=
  decode [0x00] = .ok (.init, []) ∧
  decode [0x01, 0x02] = .ok (.setOrientation 2, []) ∧
  decode [0x02, 0x41] = .ok (.dispChar 0x41, []) ∧
  decode [0x03, 0x01, 0x02, 0x04, 0x08, 0x10, 0x1F, 0x00, 0x15] =
    .ok (.dispMatrix (some #v[0x01, 0x02, 0x04, 0x08, 0x10, 0x1F, 0x00, 0x15]), []) ∧
  decode [0x04, 0x02, 0x03, 0x80] = .ok (.setPoint 2 3 true, []) ∧
  decode [0x05, 0x00, 0x01, 0xF4, 0x02, 0x48, 0x49] = .ok (.scrollText [0x48, 0x49] 500 .once, []) ∧
  decode [0x06] = .ok (.cancel, []) ∧
  decode [0x07, 0x07, 0x00] = .ok (.tick, [0x07, 0x00])
end

