-- ==== Sys2Proof/Laws/Decode.lean ====
section
/-! SUPPORT. Small laws of the command format (30_encoding.md R36 to R41). -/

namespace Sys2Proof

@[simp] theorem decodePolicy_encodePolicy (p : Policy) : decodePolicy (encodePolicy p) = .ok p := by
  cases p <;> rfl

/-- Two rows of the opcode table have different opcode bytes (R37). -/
theorem opcodeTable_pairwise : opcodeTable.Pairwise fun a b => a.opcode ≠ b.opcode := by decide

/-- The two halves of a speed, high byte first, make it again (R38). -/
theorem speed_append (v : BitVec 16) : v.extractLsb' 8 8 ++ v.extractLsb' 0 8 = v := by
  apply BitVec.eq_of_getLsbD_eq
  intro k hk
  simp only [BitVec.getLsbD_append, BitVec.getLsbD_extractLsb']
  by_cases h : k < 8
  · simp [h]
  · simp [h, show k - 8 < 8 by omega, show 8 + (k - 8) = k by omega]

theorem toNat_ofNat_length {n : Nat} (h : n ≤ 255) : (BitVec.ofNat 8 n).toNat = n := by
  simp; omega

end Sys2Proof
end

