-- ==== Sys2Proof/Laws/State.lean ====
section
/-! SUPPORT. One lemma per field per update of State: what a named operation leaves in each field. -/

namespace Sys2Proof.Machine

@[simp] theorem configurePins_cfg (s : State) : (configurePins s).cfg = s.cfg := rfl
@[simp] theorem configurePins_fb (s : State) : (configurePins s).fb = s.fb := rfl
@[simp] theorem configurePins_cur (s : State) : (configurePins s).cur = s.cur := rfl
@[simp] theorem configurePins_ori (s : State) : (configurePins s).ori = s.ori := rfl
@[simp] theorem configurePins_inited (s : State) : (configurePins s).inited = s.inited := rfl
@[simp] theorem configurePins_row (s : State) : (configurePins s).row = s.row := rfl
@[simp] theorem configurePins_col (s : State) : (configurePins s).col = s.col := rfl
@[simp] theorem configurePins_cancel (s : State) : (configurePins s).cancel = s.cancel := rfl
@[simp] theorem configurePins_pinMode (s : State) : (configurePins s).pinMode = .output := rfl
@[simp] theorem configurePins_timer (s : State) : (configurePins s).timer = s.timer := rfl
@[simp] theorem configurePins_untilTick (s : State) : (configurePins s).untilTick = s.untilTick := rfl
@[simp] theorem configurePins_tickGaps (s : State) : (configurePins s).tickGaps = s.tickGaps := rfl
@[simp] theorem configurePins_expiries (s : State) : (configurePins s).expiries = s.expiries := rfl
@[simp] theorem configurePins_cancels (s : State) : (configurePins s).cancels = s.cancels := rfl
@[simp] theorem configurePins_commands (s : State) : (configurePins s).commands = s.commands := rfl
@[simp] theorem configurePins_pending (s : State) : (configurePins s).pending = s.pending := rfl
@[simp] theorem configurePins_anim (s : State) : (configurePins s).anim = s.anim := rfl

@[simp] theorem stageWrites_cfg (ws : List FbWrite) (s : State) : (stageWrites s ws).cfg = s.cfg := rfl
@[simp] theorem stageWrites_fb (ws : List FbWrite) (s : State) : (stageWrites s ws).fb = s.fb := rfl
@[simp] theorem stageWrites_cur (ws : List FbWrite) (s : State) : (stageWrites s ws).cur = s.cur := rfl
@[simp] theorem stageWrites_ori (ws : List FbWrite) (s : State) : (stageWrites s ws).ori = s.ori := rfl
@[simp] theorem stageWrites_inited (ws : List FbWrite) (s : State) : (stageWrites s ws).inited = s.inited := rfl
@[simp] theorem stageWrites_row (ws : List FbWrite) (s : State) : (stageWrites s ws).row = s.row := rfl
@[simp] theorem stageWrites_col (ws : List FbWrite) (s : State) : (stageWrites s ws).col = s.col := rfl
@[simp] theorem stageWrites_cancel (ws : List FbWrite) (s : State) : (stageWrites s ws).cancel = s.cancel := rfl
@[simp] theorem stageWrites_pinMode (ws : List FbWrite) (s : State) : (stageWrites s ws).pinMode = s.pinMode := rfl
@[simp] theorem stageWrites_timer (ws : List FbWrite) (s : State) : (stageWrites s ws).timer = s.timer := rfl
@[simp] theorem stageWrites_untilTick (ws : List FbWrite) (s : State) : (stageWrites s ws).untilTick = s.untilTick := rfl
@[simp] theorem stageWrites_tickGaps (ws : List FbWrite) (s : State) : (stageWrites s ws).tickGaps = s.tickGaps := rfl
@[simp] theorem stageWrites_expiries (ws : List FbWrite) (s : State) : (stageWrites s ws).expiries = s.expiries := rfl
@[simp] theorem stageWrites_cancels (ws : List FbWrite) (s : State) : (stageWrites s ws).cancels = s.cancels := rfl
@[simp] theorem stageWrites_commands (ws : List FbWrite) (s : State) : (stageWrites s ws).commands = s.commands := rfl
@[simp] theorem stageWrites_pending (ws : List FbWrite) (s : State) : (stageWrites s ws).pending = ws := rfl
@[simp] theorem stageWrites_anim (ws : List FbWrite) (s : State) : (stageWrites s ws).anim = s.anim := rfl

@[simp] theorem writeFb_cfg (i : Index) (v : Byte) (s : State) : (writeFb s i v).cfg = s.cfg := rfl
@[simp] theorem writeFb_fb (i : Index) (v : Byte) (s : State) : (writeFb s i v).fb = s.fb.set i.val v := rfl
@[simp] theorem writeFb_cur (i : Index) (v : Byte) (s : State) : (writeFb s i v).cur = s.cur := rfl
@[simp] theorem writeFb_ori (i : Index) (v : Byte) (s : State) : (writeFb s i v).ori = s.ori := rfl
@[simp] theorem writeFb_inited (i : Index) (v : Byte) (s : State) : (writeFb s i v).inited = s.inited := rfl
@[simp] theorem writeFb_row (i : Index) (v : Byte) (s : State) : (writeFb s i v).row = s.row := rfl
@[simp] theorem writeFb_col (i : Index) (v : Byte) (s : State) : (writeFb s i v).col = s.col := rfl
@[simp] theorem writeFb_cancel (i : Index) (v : Byte) (s : State) : (writeFb s i v).cancel = s.cancel := rfl
@[simp] theorem writeFb_pinMode (i : Index) (v : Byte) (s : State) : (writeFb s i v).pinMode = s.pinMode := rfl
@[simp] theorem writeFb_timer (i : Index) (v : Byte) (s : State) : (writeFb s i v).timer = s.timer := rfl
@[simp] theorem writeFb_untilTick (i : Index) (v : Byte) (s : State) : (writeFb s i v).untilTick = s.untilTick := rfl
@[simp] theorem writeFb_tickGaps (i : Index) (v : Byte) (s : State) : (writeFb s i v).tickGaps = s.tickGaps := rfl
@[simp] theorem writeFb_expiries (i : Index) (v : Byte) (s : State) : (writeFb s i v).expiries = s.expiries := rfl
@[simp] theorem writeFb_cancels (i : Index) (v : Byte) (s : State) : (writeFb s i v).cancels = s.cancels := rfl
@[simp] theorem writeFb_commands (i : Index) (v : Byte) (s : State) : (writeFb s i v).commands = s.commands := rfl
@[simp] theorem writeFb_pending (i : Index) (v : Byte) (s : State) : (writeFb s i v).pending = s.pending := rfl
@[simp] theorem writeFb_anim (i : Index) (v : Byte) (s : State) : (writeFb s i v).anim = s.anim := rfl

@[simp] theorem raiseCancel_cfg (s : State) : (raiseCancel s).cfg = s.cfg := rfl
@[simp] theorem raiseCancel_fb (s : State) : (raiseCancel s).fb = s.fb := rfl
@[simp] theorem raiseCancel_cur (s : State) : (raiseCancel s).cur = s.cur := rfl
@[simp] theorem raiseCancel_ori (s : State) : (raiseCancel s).ori = s.ori := rfl
@[simp] theorem raiseCancel_inited (s : State) : (raiseCancel s).inited = s.inited := rfl
@[simp] theorem raiseCancel_row (s : State) : (raiseCancel s).row = s.row := rfl
@[simp] theorem raiseCancel_col (s : State) : (raiseCancel s).col = s.col := rfl
@[simp] theorem raiseCancel_cancel (s : State) : (raiseCancel s).cancel = true := rfl
@[simp] theorem raiseCancel_pinMode (s : State) : (raiseCancel s).pinMode = s.pinMode := rfl
@[simp] theorem raiseCancel_timer (s : State) : (raiseCancel s).timer = s.timer := rfl
@[simp] theorem raiseCancel_untilTick (s : State) : (raiseCancel s).untilTick = s.untilTick := rfl
@[simp] theorem raiseCancel_tickGaps (s : State) : (raiseCancel s).tickGaps = s.tickGaps := rfl
@[simp] theorem raiseCancel_expiries (s : State) : (raiseCancel s).expiries = s.expiries := rfl
@[simp] theorem raiseCancel_cancels (s : State) : (raiseCancel s).cancels = s.cancels := rfl
@[simp] theorem raiseCancel_commands (s : State) : (raiseCancel s).commands = s.commands := rfl
@[simp] theorem raiseCancel_pending (s : State) : (raiseCancel s).pending = s.pending := rfl
@[simp] theorem raiseCancel_anim (s : State) : (raiseCancel s).anim = s.anim := rfl

@[simp] theorem clearCancel_cfg (s : State) : (clearCancel s).cfg = s.cfg := rfl
@[simp] theorem clearCancel_fb (s : State) : (clearCancel s).fb = s.fb := rfl
@[simp] theorem clearCancel_cur (s : State) : (clearCancel s).cur = s.cur := rfl
@[simp] theorem clearCancel_ori (s : State) : (clearCancel s).ori = s.ori := rfl
@[simp] theorem clearCancel_inited (s : State) : (clearCancel s).inited = s.inited := rfl
@[simp] theorem clearCancel_row (s : State) : (clearCancel s).row = s.row := rfl
@[simp] theorem clearCancel_col (s : State) : (clearCancel s).col = s.col := rfl
@[simp] theorem clearCancel_cancel (s : State) : (clearCancel s).cancel = false := rfl
@[simp] theorem clearCancel_pinMode (s : State) : (clearCancel s).pinMode = s.pinMode := rfl
@[simp] theorem clearCancel_timer (s : State) : (clearCancel s).timer = s.timer := rfl
@[simp] theorem clearCancel_untilTick (s : State) : (clearCancel s).untilTick = s.untilTick := rfl
@[simp] theorem clearCancel_tickGaps (s : State) : (clearCancel s).tickGaps = s.tickGaps := rfl
@[simp] theorem clearCancel_expiries (s : State) : (clearCancel s).expiries = s.expiries := rfl
@[simp] theorem clearCancel_cancels (s : State) : (clearCancel s).cancels = s.cancels := rfl
@[simp] theorem clearCancel_commands (s : State) : (clearCancel s).commands = s.commands := rfl
@[simp] theorem clearCancel_pending (s : State) : (clearCancel s).pending = s.pending := rfl
@[simp] theorem clearCancel_anim (s : State) : (clearCancel s).anim = s.anim := rfl

@[simp] theorem resetRegisters_cfg (s : State) : (resetRegisters s).cfg = s.cfg := rfl
@[simp] theorem resetRegisters_fb (s : State) : (resetRegisters s).fb = s.cfg.fbReset := rfl
@[simp] theorem resetRegisters_cur (s : State) : (resetRegisters s).cur = 0 := rfl
@[simp] theorem resetRegisters_ori (s : State) : (resetRegisters s).ori = s.cfg.oriReset := rfl
@[simp] theorem resetRegisters_inited (s : State) : (resetRegisters s).inited = true := rfl
@[simp] theorem resetRegisters_row (s : State) : (resetRegisters s).row = s.row := rfl
@[simp] theorem resetRegisters_col (s : State) : (resetRegisters s).col = s.col := rfl
@[simp] theorem resetRegisters_cancel (s : State) : (resetRegisters s).cancel = s.cancel := rfl
@[simp] theorem resetRegisters_pinMode (s : State) : (resetRegisters s).pinMode = s.pinMode := rfl
@[simp] theorem resetRegisters_timer (s : State) : (resetRegisters s).timer = s.timer := rfl
@[simp] theorem resetRegisters_untilTick (s : State) : (resetRegisters s).untilTick = s.untilTick := rfl
@[simp] theorem resetRegisters_tickGaps (s : State) : (resetRegisters s).tickGaps = s.tickGaps := rfl
@[simp] theorem resetRegisters_expiries (s : State) : (resetRegisters s).expiries = s.expiries := rfl
@[simp] theorem resetRegisters_cancels (s : State) : (resetRegisters s).cancels = s.cancels := rfl
@[simp] theorem resetRegisters_commands (s : State) : (resetRegisters s).commands = s.commands := rfl
@[simp] theorem resetRegisters_pending (s : State) : (resetRegisters s).pending = s.pending := rfl
@[simp] theorem resetRegisters_anim (s : State) : (resetRegisters s).anim = s.anim := rfl

@[simp] theorem nearerTick_cfg (s : State) : (nearerTick s).cfg = s.cfg := rfl
@[simp] theorem nearerTick_fb (s : State) : (nearerTick s).fb = s.fb := rfl
@[simp] theorem nearerTick_cur (s : State) : (nearerTick s).cur = s.cur := rfl
@[simp] theorem nearerTick_ori (s : State) : (nearerTick s).ori = s.ori := rfl
@[simp] theorem nearerTick_inited (s : State) : (nearerTick s).inited = s.inited := rfl
@[simp] theorem nearerTick_row (s : State) : (nearerTick s).row = s.row := rfl
@[simp] theorem nearerTick_col (s : State) : (nearerTick s).col = s.col := rfl
@[simp] theorem nearerTick_cancel (s : State) : (nearerTick s).cancel = s.cancel := rfl
@[simp] theorem nearerTick_pinMode (s : State) : (nearerTick s).pinMode = s.pinMode := rfl
@[simp] theorem nearerTick_timer (s : State) : (nearerTick s).timer = s.timer := rfl
@[simp] theorem nearerTick_untilTick (s : State) : (nearerTick s).untilTick = if s.timer.isSome then s.untilTick - 1 else s.untilTick := rfl
@[simp] theorem nearerTick_tickGaps (s : State) : (nearerTick s).tickGaps = s.tickGaps := rfl
@[simp] theorem nearerTick_expiries (s : State) : (nearerTick s).expiries = s.expiries := rfl
@[simp] theorem nearerTick_cancels (s : State) : (nearerTick s).cancels = s.cancels := rfl
@[simp] theorem nearerTick_commands (s : State) : (nearerTick s).commands = s.commands := rfl
@[simp] theorem nearerTick_pending (s : State) : (nearerTick s).pending = s.pending := rfl
@[simp] theorem nearerTick_anim (s : State) : (nearerTick s).anim = s.anim := rfl

@[simp] theorem passTurn_cfg (s : State) : (passTurn s).cfg = s.cfg := rfl
@[simp] theorem passTurn_fb (s : State) : (passTurn s).fb = s.fb := rfl
@[simp] theorem passTurn_cur (s : State) : (passTurn s).cur = s.cur := rfl
@[simp] theorem passTurn_ori (s : State) : (passTurn s).ori = s.ori := rfl
@[simp] theorem passTurn_inited (s : State) : (passTurn s).inited = s.inited := rfl
@[simp] theorem passTurn_row (s : State) : (passTurn s).row = s.row := rfl
@[simp] theorem passTurn_col (s : State) : (passTurn s).col = s.col := rfl
@[simp] theorem passTurn_cancel (s : State) : (passTurn s).cancel = s.cancel := rfl
@[simp] theorem passTurn_pinMode (s : State) : (passTurn s).pinMode = s.pinMode := rfl
@[simp] theorem passTurn_timer (s : State) : (passTurn s).timer = s.timer := rfl
@[simp] theorem passTurn_untilTick (s : State) : (passTurn s).untilTick = if s.timer.isSome then s.untilTick - 1 else s.untilTick := rfl
@[simp] theorem passTurn_tickGaps (s : State) : (passTurn s).tickGaps = s.tickGaps := rfl
@[simp] theorem passTurn_expiries (s : State) : (passTurn s).expiries = s.expiries := rfl
@[simp] theorem passTurn_commands (s : State) : (passTurn s).commands = s.commands := rfl
@[simp] theorem passTurn_pending (s : State) : (passTurn s).pending = s.pending := rfl
@[simp] theorem passTurn_anim (s : State) : (passTurn s).anim = s.anim := rfl

@[simp] theorem cancellerTurn_cfg (s : State) : (cancellerTurn s).cfg = s.cfg := rfl
@[simp] theorem cancellerTurn_fb (s : State) : (cancellerTurn s).fb = s.fb := rfl
@[simp] theorem cancellerTurn_cur (s : State) : (cancellerTurn s).cur = s.cur := rfl
@[simp] theorem cancellerTurn_ori (s : State) : (cancellerTurn s).ori = s.ori := rfl
@[simp] theorem cancellerTurn_inited (s : State) : (cancellerTurn s).inited = s.inited := rfl
@[simp] theorem cancellerTurn_row (s : State) : (cancellerTurn s).row = s.row := rfl
@[simp] theorem cancellerTurn_col (s : State) : (cancellerTurn s).col = s.col := rfl
@[simp] theorem cancellerTurn_cancel (s : State) : (cancellerTurn s).cancel = true := rfl
@[simp] theorem cancellerTurn_pinMode (s : State) : (cancellerTurn s).pinMode = s.pinMode := rfl
@[simp] theorem cancellerTurn_timer (s : State) : (cancellerTurn s).timer = s.timer := rfl
@[simp] theorem cancellerTurn_untilTick (s : State) : (cancellerTurn s).untilTick = if s.timer.isSome then s.untilTick - 1 else s.untilTick := rfl
@[simp] theorem cancellerTurn_tickGaps (s : State) : (cancellerTurn s).tickGaps = s.tickGaps := rfl
@[simp] theorem cancellerTurn_expiries (s : State) : (cancellerTurn s).expiries = s.expiries := rfl
@[simp] theorem cancellerTurn_cancels (s : State) : (cancellerTurn s).cancels = s.cancels.tail := rfl
@[simp] theorem cancellerTurn_commands (s : State) : (cancellerTurn s).commands = s.commands := rfl
@[simp] theorem cancellerTurn_pending (s : State) : (cancellerTurn s).pending = s.pending := rfl
@[simp] theorem cancellerTurn_anim (s : State) : (cancellerTurn s).anim = s.anim := rfl

@[simp] theorem loadCommand_cfg (bytes : List Byte) (s : State) : (loadCommand s bytes).cfg = s.cfg := rfl
@[simp] theorem loadCommand_fb (bytes : List Byte) (s : State) : (loadCommand s bytes).fb = s.fb := rfl
@[simp] theorem loadCommand_cur (bytes : List Byte) (s : State) : (loadCommand s bytes).cur = s.cur := rfl
@[simp] theorem loadCommand_ori (bytes : List Byte) (s : State) : (loadCommand s bytes).ori = s.ori := rfl
@[simp] theorem loadCommand_inited (bytes : List Byte) (s : State) : (loadCommand s bytes).inited = s.inited := rfl
@[simp] theorem loadCommand_row (bytes : List Byte) (s : State) : (loadCommand s bytes).row = s.row := rfl
@[simp] theorem loadCommand_col (bytes : List Byte) (s : State) : (loadCommand s bytes).col = s.col := rfl
@[simp] theorem loadCommand_cancel (bytes : List Byte) (s : State) : (loadCommand s bytes).cancel = s.cancel := rfl
@[simp] theorem loadCommand_pinMode (bytes : List Byte) (s : State) : (loadCommand s bytes).pinMode = s.pinMode := rfl
@[simp] theorem loadCommand_timer (bytes : List Byte) (s : State) : (loadCommand s bytes).timer = s.timer := rfl
@[simp] theorem loadCommand_untilTick (bytes : List Byte) (s : State) : (loadCommand s bytes).untilTick = if s.timer.isSome then s.untilTick + 1 else s.untilTick := rfl
@[simp] theorem loadCommand_tickGaps (bytes : List Byte) (s : State) : (loadCommand s bytes).tickGaps = s.tickGaps := rfl
@[simp] theorem loadCommand_expiries (bytes : List Byte) (s : State) : (loadCommand s bytes).expiries = s.expiries := rfl
@[simp] theorem loadCommand_commands (bytes : List Byte) (s : State) : (loadCommand s bytes).commands = bytes ++ s.commands := rfl
@[simp] theorem loadCommand_pending (bytes : List Byte) (s : State) : (loadCommand s bytes).pending = [] := rfl
@[simp] theorem loadCommand_anim (bytes : List Byte) (s : State) : (loadCommand s bytes).anim = none := rfl

@[simp] theorem drawGap_cfg (s : State) : (drawGap s).cfg = s.cfg := by
  unfold drawGap; split <;> simp [*]
@[simp] theorem drawGap_fb (s : State) : (drawGap s).fb = s.fb := by
  unfold drawGap; split <;> simp [*]
@[simp] theorem drawGap_cur (s : State) : (drawGap s).cur = s.cur := by
  unfold drawGap; split <;> simp [*]
@[simp] theorem drawGap_ori (s : State) : (drawGap s).ori = s.ori := by
  unfold drawGap; split <;> simp [*]
@[simp] theorem drawGap_inited (s : State) : (drawGap s).inited = s.inited := by
  unfold drawGap; split <;> simp [*]
@[simp] theorem drawGap_row (s : State) : (drawGap s).row = s.row := by
  unfold drawGap; split <;> simp [*]
@[simp] theorem drawGap_col (s : State) : (drawGap s).col = s.col := by
  unfold drawGap; split <;> simp [*]
@[simp] theorem drawGap_cancel (s : State) : (drawGap s).cancel = s.cancel := by
  unfold drawGap; split <;> simp [*]
@[simp] theorem drawGap_pinMode (s : State) : (drawGap s).pinMode = s.pinMode := by
  unfold drawGap; split <;> simp [*]
@[simp] theorem drawGap_timer (s : State) : (drawGap s).timer = s.timer := by
  unfold drawGap; split <;> simp [*]
@[simp] theorem drawGap_tickGaps (s : State) : (drawGap s).tickGaps = s.tickGaps.tail := by
  unfold drawGap; split <;> simp [*]
@[simp] theorem drawGap_expiries (s : State) : (drawGap s).expiries = s.expiries + 1 := by
  unfold drawGap; split <;> simp [*]
@[simp] theorem drawGap_cancels (s : State) : (drawGap s).cancels = s.cancels := by
  unfold drawGap; split <;> simp [*]
@[simp] theorem drawGap_commands (s : State) : (drawGap s).commands = s.commands := by
  unfold drawGap; split <;> simp [*]
@[simp] theorem drawGap_pending (s : State) : (drawGap s).pending = s.pending := by
  unfold drawGap; split <;> simp [*]
@[simp] theorem drawGap_anim (s : State) : (drawGap s).anim = s.anim := by
  unfold drawGap; split <;> simp [*]

@[simp] theorem scheduleTimer_cfg (s : State) : (scheduleTimer s).cfg = s.cfg := by
  unfold scheduleTimer; split <;> simp
@[simp] theorem scheduleTimer_fb (s : State) : (scheduleTimer s).fb = s.fb := by
  unfold scheduleTimer; split <;> simp
@[simp] theorem scheduleTimer_cur (s : State) : (scheduleTimer s).cur = s.cur := by
  unfold scheduleTimer; split <;> simp
@[simp] theorem scheduleTimer_ori (s : State) : (scheduleTimer s).ori = s.ori := by
  unfold scheduleTimer; split <;> simp
@[simp] theorem scheduleTimer_inited (s : State) : (scheduleTimer s).inited = s.inited := by
  unfold scheduleTimer; split <;> simp
@[simp] theorem scheduleTimer_row (s : State) : (scheduleTimer s).row = s.row := by
  unfold scheduleTimer; split <;> simp
@[simp] theorem scheduleTimer_col (s : State) : (scheduleTimer s).col = s.col := by
  unfold scheduleTimer; split <;> simp
@[simp] theorem scheduleTimer_cancel (s : State) : (scheduleTimer s).cancel = s.cancel := by
  unfold scheduleTimer; split <;> simp
@[simp] theorem scheduleTimer_pinMode (s : State) : (scheduleTimer s).pinMode = s.pinMode := by
  unfold scheduleTimer; split <;> simp
@[simp] theorem scheduleTimer_cancels (s : State) : (scheduleTimer s).cancels = s.cancels := by
  unfold scheduleTimer; split <;> simp
@[simp] theorem scheduleTimer_commands (s : State) : (scheduleTimer s).commands = s.commands := by
  unfold scheduleTimer; split <;> simp
@[simp] theorem scheduleTimer_pending (s : State) : (scheduleTimer s).pending = s.pending := by
  unfold scheduleTimer; split <;> simp
@[simp] theorem scheduleTimer_anim (s : State) : (scheduleTimer s).anim = s.anim := by
  unfold scheduleTimer; split <;> simp

@[simp] theorem writePin_cfg (w : PinWrite) (s : State) : (writePin s w).cfg = s.cfg := by
  obtain ⟨_ | _, _⟩ := w <;> rfl
@[simp] theorem writePin_fb (w : PinWrite) (s : State) : (writePin s w).fb = s.fb := by
  obtain ⟨_ | _, _⟩ := w <;> rfl
@[simp] theorem writePin_cur (w : PinWrite) (s : State) : (writePin s w).cur = s.cur := by
  obtain ⟨_ | _, _⟩ := w <;> rfl
@[simp] theorem writePin_ori (w : PinWrite) (s : State) : (writePin s w).ori = s.ori := by
  obtain ⟨_ | _, _⟩ := w <;> rfl
@[simp] theorem writePin_inited (w : PinWrite) (s : State) : (writePin s w).inited = s.inited := by
  obtain ⟨_ | _, _⟩ := w <;> rfl
@[simp] theorem writePin_cancel (w : PinWrite) (s : State) : (writePin s w).cancel = s.cancel := by
  obtain ⟨_ | _, _⟩ := w <;> rfl
@[simp] theorem writePin_pinMode (w : PinWrite) (s : State) : (writePin s w).pinMode = s.pinMode := by
  obtain ⟨_ | _, _⟩ := w <;> rfl
@[simp] theorem writePin_timer (w : PinWrite) (s : State) : (writePin s w).timer = s.timer := by
  obtain ⟨_ | _, _⟩ := w <;> rfl
@[simp] theorem writePin_untilTick (w : PinWrite) (s : State) : (writePin s w).untilTick = s.untilTick := by
  obtain ⟨_ | _, _⟩ := w <;> rfl
@[simp] theorem writePin_tickGaps (w : PinWrite) (s : State) : (writePin s w).tickGaps = s.tickGaps := by
  obtain ⟨_ | _, _⟩ := w <;> rfl
@[simp] theorem writePin_expiries (w : PinWrite) (s : State) : (writePin s w).expiries = s.expiries := by
  obtain ⟨_ | _, _⟩ := w <;> rfl
@[simp] theorem writePin_cancels (w : PinWrite) (s : State) : (writePin s w).cancels = s.cancels := by
  obtain ⟨_ | _, _⟩ := w <;> rfl
@[simp] theorem writePin_commands (w : PinWrite) (s : State) : (writePin s w).commands = s.commands := by
  obtain ⟨_ | _, _⟩ := w <;> rfl
@[simp] theorem writePin_pending (w : PinWrite) (s : State) : (writePin s w).pending = s.pending := by
  obtain ⟨_ | _, _⟩ := w <;> rfl
@[simp] theorem writePin_anim (w : PinWrite) (s : State) : (writePin s w).anim = s.anim := by
  obtain ⟨_ | _, _⟩ := w <;> rfl

@[simp] theorem writePins_cfg (ws : List PinWrite) (s : State) : (writePins s ws).cfg = s.cfg := by
  induction ws generalizing s with
  | nil => rfl
  | cons w ws ih => exact (ih (writePin s w)).trans (by simp)
@[simp] theorem writePins_fb (ws : List PinWrite) (s : State) : (writePins s ws).fb = s.fb := by
  induction ws generalizing s with
  | nil => rfl
  | cons w ws ih => exact (ih (writePin s w)).trans (by simp)
@[simp] theorem writePins_cur (ws : List PinWrite) (s : State) : (writePins s ws).cur = s.cur := by
  induction ws generalizing s with
  | nil => rfl
  | cons w ws ih => exact (ih (writePin s w)).trans (by simp)
@[simp] theorem writePins_ori (ws : List PinWrite) (s : State) : (writePins s ws).ori = s.ori := by
  induction ws generalizing s with
  | nil => rfl
  | cons w ws ih => exact (ih (writePin s w)).trans (by simp)
@[simp] theorem writePins_inited (ws : List PinWrite) (s : State) : (writePins s ws).inited = s.inited := by
  induction ws generalizing s with
  | nil => rfl
  | cons w ws ih => exact (ih (writePin s w)).trans (by simp)
@[simp] theorem writePins_cancel (ws : List PinWrite) (s : State) : (writePins s ws).cancel = s.cancel := by
  induction ws generalizing s with
  | nil => rfl
  | cons w ws ih => exact (ih (writePin s w)).trans (by simp)
@[simp] theorem writePins_pinMode (ws : List PinWrite) (s : State) : (writePins s ws).pinMode = s.pinMode := by
  induction ws generalizing s with
  | nil => rfl
  | cons w ws ih => exact (ih (writePin s w)).trans (by simp)
@[simp] theorem writePins_timer (ws : List PinWrite) (s : State) : (writePins s ws).timer = s.timer := by
  induction ws generalizing s with
  | nil => rfl
  | cons w ws ih => exact (ih (writePin s w)).trans (by simp)
@[simp] theorem writePins_untilTick (ws : List PinWrite) (s : State) : (writePins s ws).untilTick = s.untilTick := by
  induction ws generalizing s with
  | nil => rfl
  | cons w ws ih => exact (ih (writePin s w)).trans (by simp)
@[simp] theorem writePins_tickGaps (ws : List PinWrite) (s : State) : (writePins s ws).tickGaps = s.tickGaps := by
  induction ws generalizing s with
  | nil => rfl
  | cons w ws ih => exact (ih (writePin s w)).trans (by simp)
@[simp] theorem writePins_expiries (ws : List PinWrite) (s : State) : (writePins s ws).expiries = s.expiries := by
  induction ws generalizing s with
  | nil => rfl
  | cons w ws ih => exact (ih (writePin s w)).trans (by simp)
@[simp] theorem writePins_cancels (ws : List PinWrite) (s : State) : (writePins s ws).cancels = s.cancels := by
  induction ws generalizing s with
  | nil => rfl
  | cons w ws ih => exact (ih (writePin s w)).trans (by simp)
@[simp] theorem writePins_commands (ws : List PinWrite) (s : State) : (writePins s ws).commands = s.commands := by
  induction ws generalizing s with
  | nil => rfl
  | cons w ws ih => exact (ih (writePin s w)).trans (by simp)
@[simp] theorem writePins_pending (ws : List PinWrite) (s : State) : (writePins s ws).pending = s.pending := by
  induction ws generalizing s with
  | nil => rfl
  | cons w ws ih => exact (ih (writePin s w)).trans (by simp)
@[simp] theorem writePins_anim (ws : List PinWrite) (s : State) : (writePins s ws).anim = s.anim := by
  induction ws generalizing s with
  | nil => rfl
  | cons w ws ih => exact (ih (writePin s w)).trans (by simp)

@[simp] theorem displayMatrix_cfg (bitmap : Option Bitmap) (s : State) : (displayMatrix bitmap s).cfg = s.cfg := by
  unfold displayMatrix; split <;> [rfl; (split <;> rfl)]
@[simp] theorem displayMatrix_fb (bitmap : Option Bitmap) (s : State) : (displayMatrix bitmap s).fb = s.fb := by
  unfold displayMatrix; split <;> [rfl; (split <;> rfl)]
@[simp] theorem displayMatrix_cur (bitmap : Option Bitmap) (s : State) : (displayMatrix bitmap s).cur = s.cur := by
  unfold displayMatrix; split <;> [rfl; (split <;> rfl)]
@[simp] theorem displayMatrix_ori (bitmap : Option Bitmap) (s : State) : (displayMatrix bitmap s).ori = s.ori := by
  unfold displayMatrix; split <;> [rfl; (split <;> rfl)]
@[simp] theorem displayMatrix_inited (bitmap : Option Bitmap) (s : State) : (displayMatrix bitmap s).inited = s.inited := by
  unfold displayMatrix; split <;> [rfl; (split <;> rfl)]
@[simp] theorem displayMatrix_row (bitmap : Option Bitmap) (s : State) : (displayMatrix bitmap s).row = s.row := by
  unfold displayMatrix; split <;> [rfl; (split <;> rfl)]
@[simp] theorem displayMatrix_col (bitmap : Option Bitmap) (s : State) : (displayMatrix bitmap s).col = s.col := by
  unfold displayMatrix; split <;> [rfl; (split <;> rfl)]
@[simp] theorem displayMatrix_cancel (bitmap : Option Bitmap) (s : State) : (displayMatrix bitmap s).cancel = s.cancel := by
  unfold displayMatrix; split <;> [rfl; (split <;> rfl)]
@[simp] theorem displayMatrix_pinMode (bitmap : Option Bitmap) (s : State) : (displayMatrix bitmap s).pinMode = s.pinMode := by
  unfold displayMatrix; split <;> [rfl; (split <;> rfl)]
@[simp] theorem displayMatrix_timer (bitmap : Option Bitmap) (s : State) : (displayMatrix bitmap s).timer = s.timer := by
  unfold displayMatrix; split <;> [rfl; (split <;> rfl)]
@[simp] theorem displayMatrix_untilTick (bitmap : Option Bitmap) (s : State) : (displayMatrix bitmap s).untilTick = s.untilTick := by
  unfold displayMatrix; split <;> [rfl; (split <;> rfl)]
@[simp] theorem displayMatrix_tickGaps (bitmap : Option Bitmap) (s : State) : (displayMatrix bitmap s).tickGaps = s.tickGaps := by
  unfold displayMatrix; split <;> [rfl; (split <;> rfl)]
@[simp] theorem displayMatrix_expiries (bitmap : Option Bitmap) (s : State) : (displayMatrix bitmap s).expiries = s.expiries := by
  unfold displayMatrix; split <;> [rfl; (split <;> rfl)]
@[simp] theorem displayMatrix_cancels (bitmap : Option Bitmap) (s : State) : (displayMatrix bitmap s).cancels = s.cancels := by
  unfold displayMatrix; split <;> [rfl; (split <;> rfl)]
@[simp] theorem displayMatrix_commands (bitmap : Option Bitmap) (s : State) : (displayMatrix bitmap s).commands = s.commands := by
  unfold displayMatrix; split <;> [rfl; (split <;> rfl)]
@[simp] theorem displayMatrix_anim (bitmap : Option Bitmap) (s : State) : (displayMatrix bitmap s).anim = s.anim := by
  unfold displayMatrix; split <;> [rfl; (split <;> rfl)]

@[simp] theorem animationStep_cfg (a : Animation) (s : State) : (animationStep a s).cfg = s.cfg := by
  unfold animationStep; split <;> [(split <;> simp); rfl]
@[simp] theorem animationStep_fb (a : Animation) (s : State) : (animationStep a s).fb = s.fb := by
  unfold animationStep; split <;> [(split <;> simp); rfl]
@[simp] theorem animationStep_cur (a : Animation) (s : State) : (animationStep a s).cur = s.cur := by
  unfold animationStep; split <;> [(split <;> simp); rfl]
@[simp] theorem animationStep_ori (a : Animation) (s : State) : (animationStep a s).ori = s.ori := by
  unfold animationStep; split <;> [(split <;> simp); rfl]
@[simp] theorem animationStep_inited (a : Animation) (s : State) : (animationStep a s).inited = s.inited := by
  unfold animationStep; split <;> [(split <;> simp); rfl]
@[simp] theorem animationStep_row (a : Animation) (s : State) : (animationStep a s).row = s.row := by
  unfold animationStep; split <;> [(split <;> simp); rfl]
@[simp] theorem animationStep_col (a : Animation) (s : State) : (animationStep a s).col = s.col := by
  unfold animationStep; split <;> [(split <;> simp); rfl]
@[simp] theorem animationStep_pinMode (a : Animation) (s : State) : (animationStep a s).pinMode = s.pinMode := by
  unfold animationStep; split <;> [(split <;> simp); rfl]
@[simp] theorem animationStep_timer (a : Animation) (s : State) : (animationStep a s).timer = s.timer := by
  unfold animationStep; split <;> [(split <;> simp); rfl]
@[simp] theorem animationStep_untilTick (a : Animation) (s : State) : (animationStep a s).untilTick = s.untilTick := by
  unfold animationStep; split <;> [(split <;> simp); rfl]
@[simp] theorem animationStep_tickGaps (a : Animation) (s : State) : (animationStep a s).tickGaps = s.tickGaps := by
  unfold animationStep; split <;> [(split <;> simp); rfl]
@[simp] theorem animationStep_expiries (a : Animation) (s : State) : (animationStep a s).expiries = s.expiries := by
  unfold animationStep; split <;> [(split <;> simp); rfl]
@[simp] theorem animationStep_cancels (a : Animation) (s : State) : (animationStep a s).cancels = s.cancels := by
  unfold animationStep; split <;> [(split <;> simp); rfl]
@[simp] theorem animationStep_commands (a : Animation) (s : State) : (animationStep a s).commands = s.commands := by
  unfold animationStep; split <;> [(split <;> simp); rfl]

theorem passTurn_cancels (s : State) :
    (passTurn s).cancels = match s.cancels with | [] => [] | g :: gs => (g - 1) :: gs := rfl

theorem loadCommand_cancels (bytes : List Byte) (s : State) :
    (loadCommand s bytes).cancels = match s.cancels with | [] => [] | g :: gs => (g + 1) :: gs := rfl

theorem drawGap_untilTick (s : State) : (drawGap s).untilTick = s.tickGaps.headD (Config.tickGap s.expiries) := by
  unfold drawGap; split <;> simp [*]

@[simp] theorem scheduleTimer_timer (s : State) :
    (scheduleTimer s).timer =
      (match s.cfg.tmode, s.timer with | .internal, none => some s.cfg.tTick | _, _ => s.timer) := by
  unfold scheduleTimer; split <;> simp [*]

end Sys2Proof.Machine
end

