-- ==== Sys2Proof/Laws/Ops.lean ====
section
/-! SUPPORT. What the shared operations over bits, the Frame Buffer and the pins do, said once. -/

namespace Sys2Proof.Machine

@[simp] theorem getLsbD_byteOfBits (f : Nat → Bool) (k : Nat) :
    (byteOfBits f).getLsbD k = (decide (k < 8) && f k) := by
  unfold byteOfBits
  rw [BitVec.getLsbD_ofBoolListLE]
  rcases k with _|_|_|_|_|_|_|_|k <;> simp

/-- Writing one bit writes that bit and no other. -/
theorem getLsbD_setBit (v : Byte) (i : Nat) (b : Bool) (k : Nat) (hk : k < 8) :
    (setBit v i b).getLsbD k = if k = i then b else v.getLsbD k := by
  have key : (1#8 <<< i).getLsbD k = decide (k = i) := by
    rw [BitVec.getLsbD_shiftLeft, BitVec.getLsbD_one]
    grind
  cases b
  · simp only [setBit, Bool.false_eq_true, ↓reduceIte, BitVec.getLsbD_and, BitVec.getLsbD_not, key]
    grind
  · simp only [setBit, ↓reduceIte, BitVec.getLsbD_or, key]
    grind

/-- Two bytes with the same eight bits are equal. -/
theorem byte_ext {v w : Byte} (h : ∀ k, k < 8 → v.getLsbD k = w.getLsbD k) : v = w :=
  BitVec.eq_of_getLsbD_eq fun k hk => h k hk

@[simp] theorem mirror_val (i : Index) : (mirror i).val = 7 - i.val := rfl

@[simp] theorem mirror_mirror (i : Index) : mirror (mirror i) = i := by
  apply Fin.ext; simp; omega

@[simp] theorem cursorIndex_val (c : BitVec 3) : (cursorIndex c).val = c.toNat := rfl

/-- The next cursor, as a number (R48). -/
theorem cursor_next_toNat (c : BitVec 3) : (c + 1).toNat = (c.toNat + 1) % 8 := by
  simp [BitVec.toNat_add]

/-! The Frame Buffer. -/

theorem readFb_writeFb (s : State) (i j : Index) (v : Byte) :
    readFb (writeFb s i v) j = if i = j then v else readFb s j := by
  simp only [readFb, writeFb_fb, Fin.getElem_fin, Vector.getElem_set, Fin.ext_iff]

theorem readFb_writeFb_same (s : State) (i : Index) (v : Byte) : readFb (writeFb s i v) i = v := by
  simp [readFb_writeFb]

theorem readFb_writeFb_of_ne (s : State) {i j : Index} (v : Byte) (h : i ≠ j) :
    readFb (writeFb s i v) j = readFb s j := by
  simp [readFb_writeFb, h]

@[simp] theorem length_bitmapWrites (p : Bitmap) : (bitmapWrites p).length = 8 := by simp [bitmapWrites]

theorem getElem_bitmapWrites (p : Bitmap) (n : Nat) (h : n < 8) :
    (bitmapWrites p)[n]'(by simpa using h) = (⟨n, h⟩, p[n]) := by simp [bitmapWrites]

/-! The pins. -/

theorem writePins_nil (s : State) : writePins s [] = s := rfl

theorem writePins_cons (s : State) (w : PinWrite) (ws : List PinWrite) :
    writePins s (w :: ws) = writePins (writePin s w) ws := rfl

theorem writePins_append (s : State) (ws vs : List PinWrite) :
    writePins s (ws ++ vs) = writePins (writePins s ws) vs := by simp [writePins]

theorem writePin_row (s : State) (w : PinWrite) :
    (writePin s w).row = match w.1 with | .row r => setBit s.row r.val w.2 | .col _ => s.row := by
  obtain ⟨_ | _, _⟩ := w <;> rfl

theorem writePin_col (s : State) (w : PinWrite) :
    (writePin s w).col = match w.1 with | .row _ => s.col | .col c => setBit s.col c.val w.2 := by
  obtain ⟨_ | _, _⟩ := w <;> rfl

/-- Pin writes change the row and column levels and nothing else. -/
theorem writePins_eq (s : State) (ws : List PinWrite) :
    writePins s ws = { s with row := (writePins s ws).row, col := (writePins s ws).col } := by
  induction ws generalizing s with
  | nil => rfl
  | cons w ws ih =>
    rw [writePins_cons, ih (writePin s w)]
    obtain ⟨_ | _, _⟩ := w <;> rfl

/-- Writing one level to a list of row lines. -/
theorem getLsbD_writePins_rows (s : State) (rs : List Index) (level : Level) (k : Index) :
    (writePins s (rs.map fun r => (.row r, level))).row.getLsbD k.val = if k ∈ rs then level else s.row.getLsbD k.val := by
  induction rs generalizing s with
  | nil => simp [writePins]
  | cons r rs ih =>
    rw [List.map_cons, writePins_cons, ih, writePin_row, getLsbD_setBit _ _ _ _ k.isLt]
    by_cases hk : k ∈ rs <;> by_cases hr : k = r <;> simp [hk, hr]
    intro e
    exact absurd (Fin.ext e) hr

/-- Writing a byte's bits to a list of column lines. -/
theorem getLsbD_writePins_cols (s : State) (cs : List Index) (v : Byte) (k : Index) :
    (writePins s (cs.map fun c => (.col c, v.getLsbD c.val))).col.getLsbD k.val =
      if k ∈ cs then v.getLsbD k.val else s.col.getLsbD k.val := by
  induction cs generalizing s with
  | nil => simp [writePins]
  | cons c cs ih =>
    rw [List.map_cons, writePins_cons, ih, writePin_col, getLsbD_setBit _ _ _ _ k.isLt]
    by_cases hk : k ∈ cs <;> by_cases hc : k = c <;> simp [hk, hc]
    intro e
    exact absurd (Fin.ext e) hc

theorem writePins_rows_col (s : State) (rs : List Index) (level : Level) :
    (writePins s (rs.map fun r => (.row r, level))).col = s.col := by
  induction rs generalizing s with
  | nil => rfl
  | cons r rs ih => rw [List.map_cons, writePins_cons, ih, writePin_col]

theorem writePins_cols_row (s : State) (cs : List Index) (f : Index → Level) :
    (writePins s (cs.map fun c => (.col c, f c))).row = s.row := by
  induction cs generalizing s with
  | nil => rfl
  | cons c cs ih => rw [List.map_cons, writePins_cons, ih, writePin_row]

theorem getLsbD_rowsInactive (cfg : Config) (k : Nat) (hk : k < 8) :
    (rowsInactive cfg).getLsbD k = !cfg.rowActive := by
  unfold rowsInactive
  cases cfg.rowActive <;> interval_cases k <;> rfl

theorem writePins_rowsOff (s : State) (cfg : Config) :
    writePins s (rowsOff cfg) = { s with row := rowsInactive cfg } := by
  have hr : (writePins s (rowsOff cfg)).row = rowsInactive cfg := by
    apply byte_ext
    intro k hk
    have := getLsbD_writePins_rows s (List.finRange 8) (!cfg.rowActive) ⟨k, hk⟩
    rw [getLsbD_rowsInactive cfg k hk]
    exact this.trans (if_pos (List.mem_finRange _))
  rw [writePins_eq, hr, rowsOff, writePins_rows_col]

theorem writePins_columnWrites (s : State) (v : Byte) :
    writePins s (columnWrites v) = { s with col := v } := by
  have hc : (writePins s (columnWrites v)).col = v := by
    apply byte_ext
    intro k hk
    have := getLsbD_writePins_cols s (List.finRange 8) v ⟨k, hk⟩
    exact this.trans (if_pos (List.mem_finRange _))
  rw [writePins_eq, hc, columnWrites, writePins_cols_row]

/-- The 17 pin writes of a tick leave one row line active and the pattern on the columns (R44). -/
theorem writePins_tick (s : State) (cfg : Config) (c : Index) (v : Byte) :
    writePins s (tickPinWrites cfg c v) = { s with row := rowOnly cfg c, col := v } := by
  rw [tickPinWrites, writePins_append, writePins_append, writePins_rowsOff, writePins_columnWrites]
  rfl

/-- The pin writes of INIT leave every line inactive (R73). -/
theorem writePins_init (s : State) (cfg : Config) :
    writePins s (initPinWrites cfg) = { s with row := rowsInactive cfg, col := 0xFF } := by
  rw [initPinWrites, writePins_append, writePins_rowsOff, writePins_columnWrites]

/-- In the row byte with line `c` active, a line is at `ROW_ACTIVE` exactly when it is line `c` (R18). -/
theorem rowOnly_active (cfg : Config) (c r : Index) :
    ((rowOnly cfg c).getLsbD r.val == cfg.rowActive) = decide (r = c) := by
  rw [rowOnly, getLsbD_setBit _ _ _ _ r.isLt, getLsbD_rowsInactive _ _ r.isLt]
  by_cases h : r = c
  · simp [h]
  · have : r.val ≠ c.val := fun e => h (Fin.ext e)
    simp [h, this]

/-! The checks. -/

/-- What passes the INITED check is its continuation (R78). -/
theorem requireInited_next {s t : State} {k : Host.Outcome State Fault Refusal} (h : requireInited s k = .next t) :
    s.inited = true ∧ k = .next t := by
  unfold requireInited at h
  split at h
  · exact ⟨‹_›, h⟩
  · cases h

theorem requirePins_next {s t : State} {k : Host.Outcome State Fault Refusal} (h : requirePins s k = .next t) :
    pinsDistinct s.cfg ∧ k = .next t := by
  unfold requirePins at h
  split at h
  · exact ⟨‹_›, h⟩
  · cases h

theorem requireInited_of {s : State} {k : Host.Outcome State Fault Refusal} (h : s.inited = true) :
    requireInited s k = k := by simp [requireInited, h]

theorem requireInited_of_not {s : State} {k : Host.Outcome State Fault Refusal} (h : s.inited = false) :
    requireInited s k = .refused .beforeInit := by simp [requireInited, h]

theorem requirePins_of {s : State} {k : Host.Outcome State Fault Refusal} (h : pinsDistinct s.cfg) :
    requirePins s k = k := by simp [requirePins, h]

end Sys2Proof.Machine
end

