-- ==== Sys2Proof/Laws/Operands.lean ====
section
/-! SUPPORT. The transform, the remapper and the scroll buffers, bit by bit. -/

namespace Sys2Proof.Machine

theorem bitmap_ext {l m : Bitmap} (h : ∀ i : Index, l[i] = m[i]) : l = m :=
  Vector.ext fun i hi => h ⟨i, hi⟩

theorem bitAt_lt (m : Bitmap) {j : Nat} (hj : j < 8) (i : Nat) : bitAt m j i = (m[j]).getLsbD i := by
  simp [bitAt, hj]

theorem getLsbD_rev5_low (cfg : Config) (b : Byte) {k : Nat} (hk : k < 5) :
    (rev5 cfg b).getLsbD k = b.getLsbD (4 - k) := by
  simp only [rev5, Config.revWidth, getLsbD_byteOfBits, hk, ↓reduceIte, show k < 8 by omega, decide_true, Bool.true_and,
    Nat.add_one_sub_one]

theorem getLsbD_rev5_high (cfg : Config) (b : Byte) {k : Nat} (hk : 5 ≤ k) (h8 : k < 8) :
    (rev5 cfg b).getLsbD k = (match cfg.revHigh with | .keep => b.getLsbD k | .clear => false) := by
  cases h : cfg.revHigh <;>
    simp only [rev5, h, Config.revWidth, getLsbD_byteOfBits, show ¬ k < 5 by omega, ↓reduceIte, h8, decide_true, Bool.true_and]

theorem getElem_rev (cfg : Config) (m : Bitmap) (i : Index) : (rev cfg m)[i] = rev5 cfg m[mirror i] := by
  simp [rev]

theorem getLsbD_transpose (l : Bitmap) (m : Index) {j : Nat} (hj : j < 8) :
    ((transpose l)[m]).getLsbD j = (l[j]).getLsbD (7 - m.val) := by
  simp only [transpose, Fin.getElem_fin, Vector.getElem_ofFn, getLsbD_byteOfBits, hj, decide_true, Bool.true_and, bitAt_lt]

theorem getLsbD_transposeInv (t : Bitmap) (j : Index) {i : Nat} (hi : i < 8) :
    ((transposeInv t)[j]).getLsbD i = (t[7 - i]).getLsbD j.val := by
  simp only [transposeInv, Fin.getElem_fin, Vector.getElem_ofFn, getLsbD_byteOfBits, hi, decide_true, Bool.true_and,
    bitAt_lt _ (show 7 - i < 8 by omega)]

theorem orientationOf_of_gt {ori : Byte} (h : 3 < ori.toNat) : orientationOf ori = none := by
  unfold orientationOf
  generalize ori.toNat = n at h
  match n with
  | 0 | 1 | 2 | 3 => omega
  | n + 4 => rfl

theorem orientationOf_of_le {ori : Byte} (h : ori.toNat ≤ 3) : ∃ o, orientationOf ori = some o := by
  unfold orientationOf
  generalize ori.toNat = n at h
  match n with
  | 0 | 1 | 2 | 3 => exact ⟨_, rfl⟩
  | n + 4 => omega

theorem xf_of_gt (cfg : Config) {ori : Byte} (l : Bitmap) (h : 3 < ori.toNat) : xf cfg ori l = none := by
  simp [xf, orientationOf_of_gt h]

/-- The bit SET_POINT changes is one of bits 4:0 (R65). -/
theorem pointTarget_bit {cfg : Config} {ori x y : Byte} {idx : Index} {bit : Nat}
    (h : pointTarget cfg ori x y = some (idx, bit)) : bit ≤ 4 := by
  unfold pointTarget at h
  repeat' split at h
  all_goals first
    | (cases h; omega)
    | cases h

theorem getElem_compose_lt (cfg : Config) (ch : Byte) (k : Index) (h : k.val < 7) :
    (compose cfg ch)[k] = glyphRow cfg ch k.val <<< 1 := by
  simp [compose, Config.glyphRows, h]

/-! The Glyph Compositor, case by case. -/

@[simp] theorem composeGlyph_null (cfg : Config) (ch : Byte) : composeGlyph cfg ch none = .ok none := rfl

theorem composeGlyph_of_supported {cfg : Config} {ch : Byte} (destination : Bitmap) (h : charSupported cfg ch = true) :
    composeGlyph cfg ch (some destination) = .ok (some (compose cfg ch)) := by simp [composeGlyph, h]

theorem composeGlyph_of_not_supported {cfg : Config} {ch : Byte} (destination : Bitmap) (h : charSupported cfg ch = false) :
    composeGlyph cfg ch (some destination) = .error (.charOutsideFont ch) := by simp [composeGlyph, h]

theorem getElem_compose_last (cfg : Config) (ch : Byte) : (compose cfg ch)[(7 : Index)] = 0 := by
  simp [compose, Config.glyphRows]

/-- A font byte has no bit above bit 4 (R79). -/
theorem getLsbD_fontByte (cfg : Config) (offset : Nat) {k : Nat} (h : 5 ≤ k) : (fontByte cfg offset).getLsbD k = false := by
  simp [fontByte]
  intro _
  exact BitVec.getLsbD_of_ge _ _ h

theorem length_glyphBuffer (cfg : Config) (text : List Byte) :
    (glyphBuffer cfg text).length = (text.length + 1) * 7 := by
  simp only [glyphBuffer, Config.glyphRows, List.length_append, List.length_replicate, List.length_flatMap, List.length_map,
    List.length_range, List.map_const', List.sum_replicate_nat]
  omega

theorem getElem_pairRegs (glyphs : List Byte) (p r : Nat) (h : r < 7) : (pairRegs glyphs p)[r] = pairWord glyphs p r := by
  simp [pairRegs]

theorem getElem_shiftRegs (regs : Vector (BitVec 16) 7) (r : Nat) (h : r < 7) : (shiftRegs regs)[r] = regs[r] <<< 1 := by
  simp [shiftRegs]

end Sys2Proof.Machine
end

