-- ==== Sys2Proof/Laws/PerInstr.lean ====
section
/-! SUPPORT. Statements made per instruction: the bytes of a well-formed operation begin with its opcode byte and have its length
(30_encoding.md R36, R37, R41). -/

namespace Sys2Proof.Laws.CommandShape

/-- The opcode byte and the length of the encoded command. -/
def Statement (i : Instr) : Prop :=
  i.WellFormed → (encode i).head? = some (opcodeOf i) ∧ (encode i).length = commandLength i

theorem init : Statement .init := fun _ => ⟨rfl, rfl⟩

theorem setOrientation (dir : Byte) : Statement (.setOrientation dir) := fun _ => ⟨rfl, rfl⟩

theorem dispChar (ch : Byte) : Statement (.dispChar ch) := fun _ => ⟨rfl, rfl⟩

theorem dispMatrix (bitmap : Option Bitmap) : Statement (.dispMatrix bitmap) := by
  intro h
  cases bitmap with
  | none => cases h
  | some l => exact ⟨rfl, by simp [encode, commandLength]⟩

theorem setPoint (x y : Byte) (on : Bool) : Statement (.setPoint x y on) := fun _ => ⟨rfl, rfl⟩

theorem scrollText (text : List Byte) (speed : BitVec 16) (policy : Policy) : Statement (.scrollText text speed policy) :=
  fun _ => ⟨rfl, by simp [encode, commandLength]; omega⟩

theorem cancel : Statement .cancel := fun _ => ⟨rfl, rfl⟩

theorem tick : Statement .tick := fun _ => ⟨rfl, rfl⟩

end Sys2Proof.Laws.CommandShape
end

