-- ==== Sys2Proof/Laws/Step.lean ====
section
/-! SUPPORT. What a step can do, said once: which agent moves, and what the foreground does on its turn. -/

namespace Sys2Proof.Machine

/-! Running. -/

@[simp] theorem run_zero (s : State) : run 0 s = .next s := rfl

theorem run_succ (k : Nat) (s : State) :
    run (k + 1) s = match step s with
      | .next t => run k t
      | .fault r => .fault r
      | .refused r => .refused r := by
  cases h : step s <;> simp [run, Host.Core.run, core, h]

theorem run_succ_of_next {k : Nat} {s t : State} (h : step s = .next t) : run (k + 1) s = run k t := by
  rw [run_succ, h]

/-- A run of `k + 1` steps that ends took a step and then `k` more. -/
theorem run_succ_next {k : Nat} {s u : State} (h : run (k + 1) s = .next u) : ∃ t, step s = .next t ∧ run k t = .next u := by
  rw [run_succ] at h
  cases hs : step s with
  | next t => rw [hs] at h; exact ⟨t, rfl, h⟩
  | fault r => rw [hs] at h; cases h
  | refused r => rw [hs] at h; cases h

theorem run_add {j k : Nat} {s t : State} (h : run j s = .next t) : run (j + k) s = run k t := by
  induction j generalizing s with
  | zero => cases h; rw [Nat.zero_add]
  | succ j ih =>
    obtain ⟨v, hv, hr⟩ := run_succ_next h
    rw [Nat.add_right_comm, run_succ_of_next hv, ih hr]

/-! Whose turn it is. -/

theorem agentTurn_multiplexer {s : State} : agentTurn s = .multiplexer ↔ tickDue s = true := by
  unfold agentTurn
  cases tickDue s <;> cases cancelDue s <;> simp

theorem tickDue_iff {s : State} : tickDue s = true ↔ s.timer.isSome = true ∧ s.untilTick = 0 := by
  simp [tickDue]

theorem agentTurn_of_quiet {k : Nat} {s : State} (h : Quiet (k + 1) s) : agentTurn s = .foreground := by
  obtain ⟨ht, hc⟩ := h
  have h1 : tickDue s = false := by
    rw [Bool.eq_false_iff]
    intro hd
    obtain ⟨h1, h2⟩ := tickDue_iff.mp hd
    have := ht h1
    omega
  have h2 : cancelDue s = false := by
    rw [Bool.eq_false_iff]
    intro hd
    have := hc 0 (by simpa [cancelDue] using hd)
    omega
  simp [agentTurn, h1, h2]

theorem quiet_passTurn {k : Nat} {s : State} (h : Quiet (k + 1) s) : Quiet k (passTurn s) := by
  obtain ⟨ht, hc⟩ := h
  refine ⟨fun hs => ?_, fun g hg => ?_⟩
  · simp only [passTurn_timer] at hs
    have := ht hs
    simp only [passTurn_untilTick, hs, ↓reduceIte]
    omega
  · rw [passTurn_cancels] at hg
    cases hl : s.cancels with
    | nil => rw [hl] at hg; simp at hg
    | cons a as =>
      rw [hl] at hg
      have := hc a (by simp [hl])
      simp at hg
      omega

/-- Quietness depends on the countdowns alone. -/
theorem quiet_congr {k : Nat} {s t : State} (h1 : t.timer = s.timer) (h2 : t.untilTick = s.untilTick)
    (h3 : t.cancels = s.cancels) (h : Quiet k s) : Quiet k t := by
  simpa only [Quiet, h1, h2, h3] using h

/-! One step, by agent. -/

theorem step_multiplexer {s : State} (h : agentTurn s = .multiplexer) : step s = timerTick s := by simp [step, h]

theorem step_canceller {s : State} (h : agentTurn s = .canceller) : step s = .next (cancellerTurn s) := by simp [step, h]

theorem step_foreground {s : State} (h : agentTurn s = .foreground) : step s = foregroundTurn (passTurn s) := by
  simp [step, h]

theorem continueOperation_write {s : State} {i : Index} {v : Byte} {ws : List FbWrite} (h : s.pending = (i, v) :: ws) :
    continueOperation s = some (writeFb (stageWrites s ws) i v) := by simp [continueOperation, h]

theorem continueOperation_anim {s : State} {a : Animation} (h : s.pending = []) (ha : s.anim = some a) :
    continueOperation s = some (animationStep a s) := by simp [continueOperation, h, ha]

theorem continueOperation_free {s : State} (h : ForegroundFree s) : continueOperation s = none := by
  simp [continueOperation, h.1, h.2]

theorem foregroundTurn_write {s : State} {i : Index} {v : Byte} {ws : List FbWrite} (h : s.pending = (i, v) :: ws) :
    foregroundTurn s = .next (writeFb (stageWrites s ws) i v) := by
  simp [foregroundTurn, continueOperation_write h]

theorem foregroundTurn_anim {s : State} {a : Animation} (h : s.pending = []) (ha : s.anim = some a) :
    foregroundTurn s = .next (animationStep a s) := by
  simp [foregroundTurn, continueOperation_anim h ha]

@[simp] theorem fetch_passTurn (s : State) : fetch (passTurn s) = fetch s := rfl

/-- Bytes that decode are the next command. -/
theorem fetch_of_ok {s : State} {i : Instr} {rest : List Byte} (h : decode s.commands = .ok (i, rest)) :
    fetch s = .command i rest := by
  unfold fetch
  cases hc : s.commands with
  | nil => rw [hc] at h; cases h
  | cons b bs => rw [hc] at h; simp only [h]

theorem fetch_of_error {s : State} {why : Reject} (hne : s.commands ≠ []) (h : decode s.commands = .error why) :
    fetch s = .invalid why := by
  unfold fetch
  cases hc : s.commands with
  | nil => exact absurd hc hne
  | cons b bs => rw [hc] at h; simp only [h]

theorem fetch_of_nil {s : State} (h : s.commands = []) : fetch s = .nothing := by simp only [fetch, h]

/-- What a step that goes on does, by its activity: every case of `step` and no other. -/
theorem step_cases {s t : State} (h : step s = .next t) :
    (activity s = .timerTick ∧ timerTick s = .next t) ∨
    (activity s = .cancellerCall ∧ t = cancellerTurn s) ∨
    (∃ i v ws, activity s = .byteWrite i v ∧ s.pending = (i, v) :: ws ∧ t = writeFb (stageWrites (passTurn s) ws) i v) ∨
    (∃ a, activity s = .animation ∧ s.pending = [] ∧ s.anim = some a ∧ t = animationStep a (passTurn s)) ∨
    (activity s = .idle ∧ ForegroundFree s ∧ s.commands = [] ∧ t = passTurn s) ∨
    (∃ i rest, activity s = .command i ∧ ForegroundFree s ∧ decode s.commands = .ok (i, rest) ∧
      exec i { passTurn s with commands := rest } = .next t) := by
  cases hturn : agentTurn s with
  | multiplexer =>
    rw [step_multiplexer hturn] at h
    exact .inl ⟨by simp [activity, hturn], h⟩
  | canceller =>
    rw [step_canceller hturn] at h
    cases h
    exact .inr (.inl ⟨by simp [activity, hturn], rfl⟩)
  | foreground =>
    rw [step_foreground hturn] at h
    refine .inr (.inr ?_)
    cases hp : s.pending with
    | cons w ws =>
      obtain ⟨i, v⟩ := w
      rw [foregroundTurn_write (by simpa using hp)] at h
      cases h
      exact .inl ⟨i, v, ws, by simp [activity, hturn, hp], rfl, rfl⟩
    | nil =>
      refine .inr ?_
      cases ha : s.anim with
      | some a =>
        rw [foregroundTurn_anim (by simpa using hp) (by simpa using ha)] at h
        cases h
        exact .inl ⟨a, by simp [activity, hturn, hp, ha], rfl, rfl, rfl⟩
      | none =>
        refine .inr ?_
        have hfree : ForegroundFree s := ⟨hp, ha⟩
        rw [foregroundTurn, continueOperation_free (s := passTurn s) (by simpa [ForegroundFree] using hfree)] at h
        simp only [fetch_passTurn] at h
        cases hf : fetch s with
        | nothing =>
          rw [hf] at h
          cases h
          refine .inl ⟨by simp [activity, hturn, hp, ha, hf], hfree, ?_, rfl⟩
          unfold fetch at hf
          cases hc : s.commands with
          | nil => rfl
          | cons b bs => rw [hc] at hf; dsimp only at hf; split at hf <;> cases hf
        | command i rest =>
          rw [hf] at h
          refine .inr ⟨i, rest, by simp [activity, hturn, hp, ha, hf], hfree, ?_, h⟩
          unfold fetch at hf
          cases hc : s.commands with
          | nil => rw [hc] at hf; cases hf
          | cons b bs =>
            rw [hc] at hf
            dsimp only at hf
            split at hf
            · cases hf; assumption
            · cases hf
        | invalid why => rw [hf] at h; cases h

/-! What an operation can do: every case of `exec` that goes on. -/

theorem refreshTick_of {s : State} (hi : s.inited = true) (hp : pinsDistinct s.cfg) :
    refreshTick s = .next { s with
      row := rowOnly s.cfg (cursorIndex s.cur), col := ~~~ s.fb[mirror (cursorIndex s.cur)], cur := s.cur + 1 } := by
  rw [refreshTick, requireInited_of hi, requirePins_of hp, writePins_tick]
  rfl

theorem refreshTick_next {s t : State} (h : refreshTick s = .next t) :
    s.inited = true ∧ pinsDistinct s.cfg ∧ t = { s with
      row := rowOnly s.cfg (cursorIndex s.cur), col := ~~~ s.fb[mirror (cursorIndex s.cur)], cur := s.cur + 1 } := by
  obtain ⟨hi, h'⟩ := requireInited_next h
  obtain ⟨hp, -⟩ := requirePins_next h'
  rw [refreshTick_of hi hp] at h
  cases h
  exact ⟨hi, hp, rfl⟩

theorem execInit_of {s : State} (hp : pinsDistinct s.cfg) :
    execInit s = .next (scheduleTimer { s with
      fb := s.cfg.fbReset, cur := 0, ori := s.cfg.oriReset, inited := true, row := rowsInactive s.cfg, col := 0xFF,
      cancel := false, pinMode := .output }) := by
  rw [execInit, requirePins_of hp, writePins_init]
  rfl

/-- A display call changes only the staged writes. -/
theorem displayMatrix_eq (bitmap : Option Bitmap) (s : State) :
    displayMatrix bitmap s = { s with pending := (displayMatrix bitmap s).pending } := by
  unfold displayMatrix
  split
  · rfl
  · split <;> rfl

theorem displayMatrix_pending (l : Bitmap) (s : State) :
    (displayMatrix (some l) s).pending =
      match xf s.cfg s.ori l with
      | none => s.pending
      | some p => bitmapWrites p := by
  simp only [displayMatrix]
  split <;> simp_all

theorem execDispMatrix_next {bitmap : Option Bitmap} {s t : State} (h : execDispMatrix bitmap s = .next t) :
    s.inited = true ∧ t = displayMatrix bitmap s := by
  obtain ⟨hi, h'⟩ := requireInited_next h
  cases h'
  exact ⟨hi, rfl⟩

theorem execDispChar_next {ch : Byte} {s t : State} (h : execDispChar ch s = .next t) :
    s.inited = true ∧ charSupported s.cfg ch = true ∧ t = displayMatrix (some (compose s.cfg ch)) s := by
  obtain ⟨hi, h'⟩ := requireInited_next h
  cases hc : charSupported s.cfg ch with
  | true => rw [composeGlyph_of_supported _ hc] at h'; cases h'; exact ⟨hi, rfl, rfl⟩
  | false => rw [composeGlyph_of_not_supported _ hc] at h'; cases h'

/-- A supported code is DISP_MATRIX of its glyph. -/
theorem execDispChar_of {ch : Byte} {s : State} (hi : s.inited = true) (hc : charSupported s.cfg ch = true) :
    execDispChar ch s = .next (displayMatrix (some (compose s.cfg ch)) s) := by
  rw [execDispChar, requireInited_of hi, composeGlyph_of_supported _ hc]

theorem execDispChar_of_not_supported {ch : Byte} {s : State} (hi : s.inited = true) (hc : charSupported s.cfg ch = false) :
    execDispChar ch s = .refused (.charOutsideFont ch) := by
  rw [execDispChar, requireInited_of hi, composeGlyph_of_not_supported _ hc]

theorem execSetPoint_next {x y : Byte} {on : Bool} {s t : State} (h : execSetPoint x y on s = .next t) :
    s.inited = true ∧
      ((pointTarget s.cfg s.ori x y = none ∧ t = s) ∨
        ∃ idx bit, pointTarget s.cfg s.ori x y = some (idx, bit) ∧
          t = stageWrites s [(idx, setBit (readFb s idx) bit on)]) := by
  obtain ⟨hi, h'⟩ := requireInited_next h
  refine ⟨hi, ?_⟩
  split at h'
  · cases h'; exact .inl ⟨‹_›, rfl⟩
  · cases h'; exact .inr ⟨_, _, ‹_›, rfl⟩

theorem execScrollText_next {text : List Byte} {speed : BitVec 16} {policy : Policy} {s t : State}
    (h : execScrollText text speed policy s = .next t) :
    s.inited = true ∧
      ((Config.maxScrollLen < text.length ∧ t = s) ∨
        (text = [] ∧ policy = .once ∧ t = s) ∨
        (text ≠ [] ∧ text.length ≤ Config.maxScrollLen ∧ (∀ ch ∈ text, charSupported s.cfg ch = true) ∧
          t = { s with anim := some (startAnimation s.cfg text speed policy) })) := by
  obtain ⟨hi, h'⟩ := requireInited_next h
  refine ⟨hi, ?_⟩
  split at h'
  · cases h'; exact .inl ⟨‹_›, rfl⟩
  · split at h'
    · cases h'
    · rename_i hlen hfind
      split at h'
      · cases h'; exact .inr (.inl ⟨rfl, rfl, rfl⟩)
      · cases h'
      · cases h'
        refine .inr (.inr ⟨by simp, by omega, ?_, rfl⟩)
        simpa using hfind

end Sys2Proof.Machine
end

