-- ==== Sys2Proof/Tests/Slice0.lean ====
section
/-! SUPPORT. The model's own tests: ill-formed operations, decoding of words written out from 30_encoding.md, vectors of
95_test_vectors.md (one step each), and a witness for the hypotheses of each statement. -/

namespace Sys2Proof.Tests

set_option Elab.async false

open Sys2Proof.Machine

/-! Helpers. -/

/-- The next state, if there is one. -/
def nextOf (o : Host.Outcome State Fault Refusal) : Option State :=
  match o with
  | .next t => some t
  | .fault _ => none
  | .refused _ => none

theorem of_nextOf {o : Host.Outcome State Fault Refusal} {t : State} (h : nextOf o = some t) : o = .next t := by
  cases o <;> simp_all [nextOf]

theorem exists_next {o : Host.Outcome State Fault Refusal} (h : (nextOf o).isSome = true) : ∃ t, o = .next t := by
  cases o <;> simp_all [nextOf]

/-- The refusal, if there is one. -/
def refusalOf (o : Host.Outcome State Fault Refusal) : Option Refusal :=
  match o with
  | .next _ => none
  | .fault _ => none
  | .refused r => some r

theorem of_refusalOf {o : Host.Outcome State Fault Refusal} {r : Refusal} (h : refusalOf o = some r) : o = .refused r := by
  cases o <;> simp_all [refusalOf]

/-- Eight bytes alike. -/
def fill (b : Byte) : Bitmap := #v[b, b, b, b, b, b, b, b]

/-- The state after INIT with the defaults (vector V-C1). -/
def ready : State := { State.reset with inited := true, col := 0xFF, pinMode := .output }

/-- The same under an internal timer whose expiry is 100 turns away. -/
def readyInternal : State :=
  { ready with cfg := { Config.default with tmode := .internal }, timer := some 1, untilTick := 100 }

/-- Every line on one pin. -/
def sharedPins : Config := { Config.default with colPin := #v[0, 0, 0, 0, 0, 0, 0, 0] }

/-- The glyph G1 of 95_test_vectors.md section 2.6, at code 0x41: table offset (0x41 - 32) * 7 = 231. -/
def glyphA : List (Nat × BitVec 5) :=
  [(231, 0x04), (232, 0x0A), (233, 0x11), (234, 0x11), (235, 0x1F), (236, 0x11), (237, 0x11)]

def readyFont : State := { ready with cfg := { Config.default with font := glyphA } }

/-- The bitmaps A and B of vectors V-X2, V-X3. -/
def bitmapA : Bitmap := #v[0x01, 0x02, 0x04, 0x08, 0x10, 0x1F, 0x00, 0x15]

def bitmapB : Bitmap := #v[0x81, 0x42, 0x24, 0x18, 0xFF, 0x00, 0xE0, 0x3C]

/-! Well-formedness: each check refuses an ill-formed operation. -/

theorem test_null_bitmap_ill_formed : ¬ (Instr.dispMatrix none).WellFormed := by decide

theorem test_text_of_256_ill_formed : ¬ (Instr.scrollText (List.replicate 256 0x41) 0 .once).WellFormed := by decide +kernel

theorem test_text_of_255_well_formed : (Instr.scrollText (List.replicate 255 0x41) 0 .once).WellFormed := by decide +kernel

/-! Decoding (30_encoding.md R37, R38; 95_test_vectors.md section 2.5), words as opcode_table.json numbers them. -/

theorem test_decode_init : decodeTableWord 8 0x00 = some .init := by decide +kernel

theorem test_decode_set_orientation : decodeTableWord 16 0xFF01 = some (.setOrientation 0xFF) := by decide +kernel

theorem test_decode_disp_char : decodeTableWord 16 0x4102 = some (.dispChar 0x41) := by decide +kernel

theorem test_decode_disp_matrix : decodeTableWord 72 0x15_00_1F_10_08_04_02_01_03 = some (.dispMatrix (some bitmapA)) := by
  decide +kernel

theorem test_decode_set_point : decodeTableWord 32 0x80_03_02_04 = some (.setPoint 2 3 true) := by decide +kernel

theorem test_decode_set_point_off : decodeTableWord 32 0x00_03_02_04 = some (.setPoint 2 3 false) := by decide +kernel

theorem test_decode_scroll_text :
    decodeTableWord 56 0x49_48_02_F4_01_00_05 = some (.scrollText [0x48, 0x49] 500 .once) := by decide +kernel

theorem test_decode_cancel : decodeTableWord 8 0x06 = some .cancel := by decide +kernel

theorem test_decode_tick : decodeTableWord 8 0x07 = some .tick := by decide +kernel

theorem test_decode_reserved : decodeTableWord 8 0x08 = none ∧ decodeTableWord 8 0xFF = none := by decide +kernel

theorem test_decode_bad_policy : decodeTableWord 40 0x00_64_00_02_05 = none := by decide +kernel

theorem test_decode_truncated : decode [0x03, 0x01, 0x02] = .error .truncated := rfl

/-! Vectors of 95_test_vectors.md, one step each. -/

/-- V-C2: INIT after use. -/
theorem test_init_after_use :
    nextOf (exec .init { ready with
      cur := 5, fb := #v[0x11, 0x22, 0x33, 0x44, 0x55, 0x66, 0x77, 0x88], ori := 3, row := 0x10, col := 0xBB }) = some ready := by
  decide +kernel

/-- V-C3: SET_ORIENTATION 1. -/
theorem test_set_orientation :
    nextOf (exec (.setOrientation 1) { ready with fb := bitmapA, cur := 3 }) = some { ready with fb := bitmapA, cur := 3, ori := 1 } := by
  decide +kernel

/-- V-X3: the transforms of a full-width bitmap under Left, KEEP and CLEAR. -/
theorem test_disp_matrix_left :
    xf Config.default 2 bitmapB = some #v[0x11, 0x09, 0x85, 0x83, 0x83, 0xC5, 0x49, 0x51] ∧
      xf { Config.default with revHigh := .clear } 2 bitmapB = some #v[0x11, 0x09, 0x05, 0x03, 0x03, 0x05, 0x09, 0x11] := by
  decide +kernel

/-- The worked example of R58 (Down): the byte writes staged, index 0 first. -/
theorem test_disp_matrix_down :
    (nextOf (exec (.dispMatrix (some bitmapA)) { ready with ori := 1 })).map State.pending =
      some [(0, 0x15), (1, 0x00), (2, 0x1F), (3, 0x01), (4, 0x02), (5, 0x04), (6, 0x08), (7, 0x10)] := by
  decide +kernel

/-- V-SP11: SET_POINT 2, 5, off under Down. -/
theorem test_set_point_down :
    (nextOf (exec (.setPoint 2 5 false) { ready with ori := 1, fb := fill 0xFF })).map State.pending = some [(2, 0xFB)] := by
  decide +kernel

/-- V-SP14: both coordinates out of range. -/
theorem test_set_point_out_of_range : nextOf (exec (.setPoint 255 255 true) ready) = some ready := by decide +kernel

/-- V-H1: DISP_CHAR 0x41 under Down. -/
theorem test_disp_char_down :
    (nextOf (exec (.dispChar 0x41) { readyFont with ori := 1 })).map State.pending =
      some (bitmapWrites #v[0x00, 0x28, 0x28, 0x2F, 0x28, 0x28, 0x05, 0x02]) := by
  decide +kernel

/-- R81: a null destination, also for a code outside the font. -/
theorem test_compose_null : (composeGlyph readyFont.cfg 0x41 none).toOption = some none ∧ (composeGlyph readyFont.cfg 0x7F none).toOption = some none := by
  decide

theorem test_disp_char_outside : refusalOf (exec (.dispChar 0x7F) readyFont) = some (.charOutsideFont 0x7F) := by decide +kernel

/-- V-H2: the flat glyph buffer of "A". -/
theorem test_scroll_text_glyphs :
    ((nextOf (exec (.scrollText [0x41] 500 .once) readyFont)).bind fun t => t.anim.map Animation.glyphs) =
      some [0x00, 0x00, 0x00, 0x00, 0x00, 0x00, 0x00, 0x20, 0x50, 0x88, 0x88, 0xF8, 0x88, 0x88] := by
  decide +kernel

/-- V-H3: frame 3 of "A" and the last, frame 5. -/
theorem test_scroll_frames :
    scrollFrame (glyphBuffer readyFont.cfg [0x41]) 0 3 = #v[0x01, 0x02, 0x04, 0x04, 0x07, 0x04, 0x04, 0x00] ∧
      scrollFrame (glyphBuffer readyFont.cfg [0x41]) 0 5 = #v[0x04, 0x0A, 0x11, 0x11, 0x1F, 0x11, 0x11, 0x00] := by
  decide +kernel

theorem test_cancel : nextOf (exec .cancel State.reset) = some { State.reset with cancel := true } := by decide +kernel

/-- V-T1, the row of CUR = 7: the wrap. -/
theorem test_tick_wraps :
    nextOf (exec .tick { ready with cur := 7, fb := #v[0x80, 0x41, 0x22, 0x14, 0x08, 0x1F, 0xE0, 0xFF] }) =
      some { ready with cur := 0, fb := #v[0x80, 0x41, 0x22, 0x14, 0x08, 0x1F, 0xE0, 0xFF], row := 0x80, col := 0x7F } := by
  decide +kernel

/-- V-T6: the pin-write trace of one tick. -/
theorem test_tick_trace :
    tickPinWrites Config.default 2 (~~~ 0x1F) =
      [(.row 0, false), (.row 1, false), (.row 2, false), (.row 3, false), (.row 4, false), (.row 5, false), (.row 6, false),
       (.row 7, false), (.col 0, false), (.col 1, false), (.col 2, false), (.col 3, false), (.col 4, false), (.col 5, true),
       (.col 6, true), (.col 7, true), (.row 2, true)] := by
  decide +kernel

/-- V-C5: the first step after reset is refused for TICK and runs INIT. -/
theorem test_first_step :
    refusalOf (step (State.reset.withFetchWord 8 7)) = some .beforeInit ∧
      nextOf (step (State.reset.withFetchWord 8 0)) = some ready := by
  decide +kernel

/-- The textual form of R42. -/
theorem test_text :
    (Instr.scrollText [0x48, 0x49] 500 .once).text = "SCROLL_TEXT once, 500, \"HI\"" ∧ (Instr.setPoint 2 3 true).text = "SET_POINT 2, 3, on" := by
  decide +kernel

/-! Witnesses: a state and operands that meet the hypotheses of each statement. -/

theorem witness_InitSetsEveryRegister :
    pinsDistinct State.reset.cfg ∧ pinsDistinct readyInternal.cfg ∧ State.reset.cfg.tmode = .external ∧
      readyInternal.timer.isSome = true := by decide

/-- The last clause: an idle step, and the INIT of a machine in use. -/
theorem witness_InitLeavesNothingLit :
    exec .init State.reset = .next ready ∧ (∀ r : Index, rowIsActive ready r = false) ∧ (∃ t, step ready = .next t) ∧
      activity ready ≠ .timerTick ∧ activity ready ≠ .command .tick ∧ (∃ t, step { ready with commands := [0] } = .next t) ∧
      activity { ready with commands := [0] } = .command .init :=
  ⟨of_nextOf (by decide +kernel), by decide, exists_next (by decide +kernel), by decide, by decide, exists_next (by decide +kernel),
    by decide +kernel⟩

theorem witness_SecondInitChangesNothing : exec .init ready = .next ready := of_nextOf (by decide +kernel)

theorem witness_SharedPinsAreRefused : ¬ pinsDistinct sharedPins ∧ ({ ready with cfg := sharedPins } : State).inited = true := by decide

theorem witness_BeforeInitOperationsAreRefused :
    State.reset.inited = false ∧ Instr.tick ≠ .init ∧ Instr.tick ≠ .cancel := by decide

/-- A machine before INIT with commands waiting satisfies the invariant. -/
theorem before_inv (b : Byte) (bs : List Byte) : ({ State.reset with commands := b :: bs } : State).Inv where
  pins := by intro h; cases h
  pinMode := ⟨fun h => (by cases h), fun h => (by cases h)⟩
  timer := rfl
  rows := by intro h; cases h
  pending := by intro h; exact absurd rfl h
  pending_le := Nat.zero_le _
  anim := by intro a h; cases h

theorem witness_BeforeInitNoRegisterIsRead :
    ({ State.reset with commands := [7] } : State).Inv ∧ step { State.reset with commands := [7] } = .refused .beforeInit ∧
      ({ State.reset with commands := [0] } : State).Inv ∧ step { State.reset with commands := [0] } = .next ready ∧
      ({ State.reset with commands := [6] } : State).Inv ∧ step { State.reset with commands := [6] } = .next { State.reset with cancel := true } :=
  ⟨before_inv _ _, of_refusalOf (by decide +kernel), before_inv _ _, of_nextOf (by decide +kernel), before_inv _ _,
    of_nextOf (by decide +kernel)⟩

/-- An initialized machine with distinct pins: the hypotheses of TickShowsOneRow, TickInvertsAllEightBits, CursorAdvancesModuloEight,
FullScanLightsEachSetBitOnce and WrittenByteIsShownWithinEightTicks. -/
theorem witness_TickShowsOneRow : ready.inited = true ∧ pinsDistinct ready.cfg := by decide

theorem witness_TickInvertsAllEightBits : ready.inited = true ∧ pinsDistinct ready.cfg := witness_TickShowsOneRow

theorem witness_CursorAdvancesModuloEight :
    (ready.inited = true ∧ pinsDistinct ready.cfg) ∧
      (∃ t, step ready = .next t) ∧ activity ready ≠ .timerTick ∧ activity ready ≠ .command .tick ∧ activity ready ≠ .command .init :=
  ⟨witness_TickShowsOneRow, exists_next (by decide +kernel), by decide, by decide, by decide⟩

theorem witness_TickIgnoresOrientationAndOldLevels : ∃ t, exec .tick ready = .next t := exists_next (by decide +kernel)

theorem witness_TickMakesSeventeenPinWrites : ∃ t, exec .tick ready = .next t := exists_next (by decide +kernel)

/-- Row 1 active before a tick that lights row 2: the old row is active before any write, the new one after all seventeen. -/
theorem witness_TickNeverGhosts :
    let s : State := { ready with cur := 2, row := 0x02 }
    (∀ q : Index, rowIsActive s q = true → q = 1) ∧
      rowIsActive (writePins s ((tickPinWrites s.cfg (cursorIndex s.cur) (scannedPattern s)).take 0)) 1 = true ∧
      rowIsActive (writePins s ((tickPinWrites s.cfg (cursorIndex s.cur) (scannedPattern s)).take 17)) 2 = true := by
  decide +kernel

theorem witness_FullScanLightsEachSetBitOnce : ready.inited = true ∧ pinsDistinct ready.cfg := witness_TickShowsOneRow

theorem witness_WrittenByteIsShownWithinEightTicks : ready.inited = true ∧ pinsDistinct ready.cfg := witness_TickShowsOneRow

theorem witness_SetOrientationStoresAnyValue : ready.inited = true := rfl

theorem quiet_ready (k : Nat) : Quiet k ready := ⟨(by intro h; cases h), (by intro g h; cases h)⟩

theorem quiet_readyInternal : Quiet 100 readyInternal := ⟨fun _ => Nat.le_refl 100, (by intro g h; cases h)⟩

/-- Under each legal orientation, with no timer and with one 100 turns away. -/
theorem witness_DispMatrixStoresTransformedBitmap :
    (ready.inited = true ∧ ready.ori.toNat ≤ 3 ∧ Quiet 8 ready) ∧
      ({ readyInternal with ori := 3 } : State).ori.toNat ≤ 3 ∧ Quiet 8 { readyInternal with ori := 3, untilTick := 8 } :=
  ⟨⟨rfl, by decide, quiet_ready 8⟩, by decide, ⟨fun _ => Nat.le_refl 8, (by intro g h; cases h)⟩⟩

theorem witness_NullBitmapIsIgnored : ready.inited = true := rfl

theorem witness_UnsupportedOrientationDisablesDisplay :
    ({ ready with ori := 4 } : State).inited = true ∧ 3 < ({ ready with ori := 4 } : State).ori.toNat ∧
      charSupported ready.cfg 0x41 = true := by decide

/-- The old buffer AA, the new one 55 (vector V-X10), with n bytes landed. -/
def torn (n : Nat) : State :=
  { readyInternal with
    fb := Vector.ofFn fun i : Fin 8 => if i.val < n then 0x55 else 0xAA
    pending := (bitmapWrites (fill 0x55)).drop n }

theorem torn_holds (n : Nat) : Torn (fill 0xAA) (fill 0x55) n (torn n) := by
  refine ⟨rfl, fun i => ?_⟩
  have h1 : (fill 0x55)[i] = 0x55 := by revert i; decide
  have h2 : (fill 0xAA)[i] = 0xAA := by revert i; decide
  simp only [torn, Fin.getElem_fin, Vector.getElem_ofFn] at h1 h2 ⊢
  rw [h1, h2]

/-- A byte write at n = 0 and at n = 7, a tick and a canceller call at n = 3. -/
theorem witness_TornBufferStep :
    (Torn (fill 0xAA) (fill 0x55) 0 (torn 0) ∧ ∃ t, step (torn 0) = .next t) ∧
      (Torn (fill 0xAA) (fill 0x55) 7 (torn 7) ∧ ∃ t, step (torn 7) = .next t) ∧
      (Torn (fill 0xAA) (fill 0x55) 3 { torn 3 with untilTick := 0 } ∧ ∃ t, step { torn 3 with untilTick := 0 } = .next t) ∧
      (Torn (fill 0xAA) (fill 0x55) 3 { torn 3 with cancels := [0] } ∧ ∃ t, step { torn 3 with cancels := [0] } = .next t) :=
  ⟨⟨torn_holds 0, exists_next (by decide +kernel)⟩, ⟨torn_holds 7, exists_next (by decide +kernel)⟩,
    ⟨torn_holds 3, exists_next (by decide +kernel)⟩, ⟨torn_holds 3, exists_next (by decide +kernel)⟩⟩

theorem witness_BufferIsOldOrNewThroughout :
    xf readyInternal.cfg readyInternal.ori (fill 0x55) = some (fill 0x55) ∧
      exec (.dispMatrix (some (fill 0x55))) readyInternal = .next { readyInternal with pending := bitmapWrites (fill 0x55) } ∧
      ∃ u, run 1 { readyInternal with pending := bitmapWrites (fill 0x55) } = .next u :=
  ⟨by decide +kernel, of_nextOf (by decide +kernel), exists_next (by decide +kernel)⟩

theorem witness_ReversalTwiceRestores :
    Config.default.revHigh = .keep ∧ ({ Config.default with revHigh := .clear } : Config).revHigh = .clear := by decide

theorem witness_TransposeHasItsInverse :
    Config.default.revHigh = .keep ∧ ({ Config.default with revHigh := .clear } : Config).revHigh = .clear ∧
      ∀ i : Index, 5 ≤ i.val → (#v[1, 2, 4, 8, 0x10, 0, 0, 0] : Bitmap)[i] = 0 := by decide

theorem witness_SetPointNormalWritesOneBit :
    ready.inited = true ∧ ready.ori = 0 ∧ (4 : Byte).toNat ≤ 4 ∧ (7 : Byte).toNat ≤ 7 ∧ Quiet 1 ready :=
  ⟨rfl, rfl, by decide, by decide, quiet_ready 1⟩

theorem witness_SetPointDownMirrorsOrDoesNothing :
    ({ ready with ori := 1 } : State).inited = true ∧ ({ ready with ori := 1 } : State).ori = 1 ∧ (4 : Byte).toNat ≤ 4 ∧
      (7 : Byte).toNat ≤ 7 ∧ Config.default.pointDown = .mirror ∧
      ({ Config.default with pointDown := .noop } : Config).pointDown = .noop ∧ Quiet 1 { ready with ori := 1 } :=
  ⟨rfl, rfl, by decide, by decide, rfl, rfl, quiet_ready 1⟩

theorem witness_SetPointNoOps :
    ready.inited = true ∧ 4 < (5 : Byte).toNat ∧ 7 < (8 : Byte).toNat ∧ ({ ready with ori := 2 } : State).ori = 2 ∧
      ({ ready with ori := 3 } : State).ori = 3 := by decide

/-- A target at each end of the range, and operands one past it. -/
theorem witness_SetPointReachesOnlyLowFiveBits :
    ready.inited = true ∧ pointTarget ready.cfg ready.ori 0 0 = some (0, 4) ∧ pointTarget ready.cfg ready.ori 4 7 = some (7, 0) ∧
      pointTarget ready.cfg ready.ori 5 0 = none ∧ pointTarget ready.cfg ready.ori 0 8 = none := by decide

/-- Orientation Down with one bit set. -/
def mirrored : State := { ready with ori := 1, fb := #v[0, 0, 0, 0, 0x02, 0, 0, 0] }

theorem witness_SetPointAgreesWithDispMatrix :
    (ready.inited = true ∧ ready.ori = 0 ∧ (1 : Byte).toNat ≤ 4 ∧ (3 : Byte).toNat = (3 : Index).val ∧ Quiet 1 ready ∧
      xf ready.cfg ready.ori (fill 0) = some ready.fb) ∧
      (mirrored.ori = 1 ∧ mirrored.cfg.pointDown = .mirror ∧ xf mirrored.cfg mirrored.ori #v[0, 0, 0, 0x08, 0, 0, 0, 0] = some mirrored.fb) :=
  ⟨⟨rfl, rfl, by decide, rfl, quiet_ready 1, by decide +kernel⟩, by decide +kernel⟩

theorem witness_PointOnThenOffClearsOnlyThatBit :
    let s : State := { ready with commands := [4, 1, 3, 1, 4, 1, 3, 0, 7] }
    s.inited = true ∧ s.ori = 0 ∧ ForegroundFree s ∧ Quiet 4 s ∧
      s.commands = encode (.setPoint 1 3 true) ++ encode (.setPoint 1 3 false) ++ [7] :=
  ⟨rfl, rfl, ⟨rfl, rfl⟩, quiet_ready 4, rfl⟩

theorem witness_DispCharStoresComposedGlyph :
    ready.inited = true ∧ ready.ori.toNat ≤ 3 ∧ 32 ≤ (126 : Byte).toNat ∧ (126 : Byte).toNat ≤ ready.cfg.fontLast ∧ Quiet 8 ready :=
  ⟨rfl, by decide, by decide, by decide, quiet_ready 8⟩

theorem witness_ComposeShiftsSevenRowsAndBlanksTheEighth :
    32 ≤ (32 : Byte).toNat ∧ (126 : Byte).toNat ≤ Config.default.fontLast ∧ (0 : Index).val < 7 ∧ (6 : Index).val < 7 := by decide

theorem witness_ComposedGlyphUsesBitsOneToFive :
    ((compose readyFont.cfg 0x41)[(4 : Index)]).getLsbD 1 = true ∧ ((compose readyFont.cfg 0x41)[(4 : Index)]).getLsbD 5 = true := by
  decide +kernel

theorem witness_CompositorIgnoresNullAndCodesOutsideTheFontAreRefused :
    (32 ≤ (32 : Byte).toNat ∧ (126 : Byte).toNat ≤ ready.cfg.fontLast) ∧ ready.inited = true ∧ (31 : Byte).toNat < 32 ∧ ready.cfg.fontLast < (127 : Byte).toNat ∧ ([0x41, 0x7F] : List Byte).length ≤ 20 ∧
      ∃ ch ∈ ([0x41, 0x7F] : List Byte), ch.toNat < 32 ∨ ready.cfg.fontLast < ch.toNat := by decide

theorem witness_ScrollTextStartsTheAnimator :
    ready.inited = true ∧ (List.replicate 20 (0x41 : Byte)) ≠ [] ∧ (List.replicate 20 (0x41 : Byte)).length ≤ 20 ∧
      ∀ ch ∈ List.replicate 20 (0x41 : Byte), charSupported ready.cfg ch = true := by decide

theorem witness_OversizedTextReturnsAtOnce : ready.inited = true ∧ 20 < (List.replicate 21 (0x41 : Byte)).length := by decide

theorem witness_EmptyTextReturnsOrIsRefused : ready.inited = true := rfl

theorem witness_GlyphBufferLayout :
    ([0x41, 0x20] : List Byte)[1]? = some 0x20 ∧ 32 ≤ (0x20 : Byte).toNat ∧ 6 < 7 ∧ Config.default.preshift = .three ∧
      ({ Config.default with preshift := .two } : Config).preshift = .two := by decide

/-- An animator at the check of its last sub-frame. -/
def lastCheck (policy : Policy) : Animation :=
  { startAnimation readyFont.cfg [0x41] 500 policy with
    sub := 5, regs := Vector.ofFn fun r : Fin 7 => pairWord (glyphBuffer readyFont.cfg [0x41]) 0 r.val <<< 5 }

theorem lastCheck_sound (policy : Policy) : (lastCheck policy).Sound where
  count_pos := by cases policy <;> decide
  count_le := by cases policy <;> decide
  length_glyphs := by cases policy <;> decide +kernel
  pair_lt := by cases policy <;> decide
  sub_lt := by cases policy <;> decide
  regs_eq := by
    intro r h
    simp only [lastCheck, Vector.getElem_ofFn]
    rfl

theorem witness_SubframePushesItsFrame :
    let s : State := { readyFont with anim := some (lastCheck .once) }
    agentTurn s = .foreground ∧ s.pending = [] ∧ (lastCheck .once).Sound ∧ (lastCheck .once).phase = .check ∧ s.cancel = false ∧
      xf s.cfg s.ori (scrollFrame (lastCheck .once).glyphs (lastCheck .once).pair (lastCheck .once).sub) =
        some #v[0x04, 0x0A, 0x11, 0x11, 0x1F, 0x11, 0x11, 0x00] ∧
      agentTurn { s with ori := 4 } = .foreground ∧ 3 < ({ s with ori := 4 } : State).ori.toNat :=
  ⟨by decide, rfl, lastCheck_sound .once, rfl, rfl, by decide +kernel, by decide, by decide⟩

theorem witness_CancelledSubframeReturns :
    let s : State := { readyFont with anim := some (lastCheck .forever), cancel := true }
    agentTurn s = .foreground ∧ s.pending = [] ∧ s.anim = some (lastCheck .forever) ∧ (lastCheck .forever).phase = .check ∧
      s.cancel = true := ⟨by decide, rfl, rfl, rfl, rfl⟩

/-- An internal timer's ticks and canceller calls between the foreground's steps: ten of the next 17 steps are the foreground's. -/
def interrupted : State :=
  { readyFont with
    cfg := { readyFont.cfg with tmode := .internal }, timer := some 1, untilTick := 0, tickGaps := [3, 0, 3, 3, 50], cancels := [2, 1]
    anim := some { lastCheck .forever with phase := .hold }, pending := bitmapWrites (fill 0), cancel := true }

theorem interrupted_inv : interrupted.Inv := by
  refine ⟨fun _ => by decide, by decide, rfl, fun _ => .inl (by decide), fun _ => rfl, by decide, ?_⟩
  intro a h
  cases h
  have h := lastCheck_sound .forever
  exact ⟨rfl, h.count_pos, h.count_le, h.length_glyphs, h.pair_lt, h.sub_lt, h.regs_eq⟩

theorem interrupted_turns :
    interrupted.anim.isSome = true ∧ interrupted.cancel = true ∧ foregroundTurns 17 interrupted = 10 := by decide +kernel

/-- Left to itself: eight byte writes still to come, then the delay, then the check. -/
theorem witness_CancelIsSeenWithinOneSubframe :
    (interrupted.Inv ∧ interrupted.anim.isSome = true ∧ interrupted.cancel = true ∧ 10 ≤ foregroundTurns 17 interrupted) ∧
    let s : State := { readyFont with
      anim := some { lastCheck .forever with phase := .hold }, pending := bitmapWrites (fill 0), cancel := true }
    s.Inv ∧ s.anim.isSome = true ∧ s.cancel = true ∧ Quiet 10 s := by
  refine ⟨⟨interrupted_inv, interrupted_turns.1, interrupted_turns.2.1, Nat.le_of_eq interrupted_turns.2.2.symm⟩, ⟨fun _ => by decide, by decide, rfl, fun _ => .inl (by decide), fun _ => rfl, by decide, ?_⟩, rfl, rfl, ?_⟩
  · intro a h
    cases h
    have h := lastCheck_sound .forever
    exact ⟨rfl, h.count_pos, h.count_le, h.length_glyphs, h.pair_lt, h.sub_lt, h.regs_eq⟩
  · exact ⟨(by intro h; cases h), (by intro g h; cases h)⟩

theorem witness_ScrollOnceProducesSixFramesPerCharacter :
    ready.inited = true ∧ ready.ori.toNat ≤ 3 ∧ ForegroundFree ready ∧ ready.cancel = false ∧ ([0x41, 0x42] : List Byte) ≠ [] ∧
      ([0x41, 0x42] : List Byte).length ≤ 20 ∧ (∀ ch ∈ ([0x41, 0x42] : List Byte), charSupported ready.cfg ch = true) ∧
      Quiet (60 * ([0x41, 0x42] : List Byte).length) ready :=
  ⟨rfl, by decide, ⟨rfl, rfl⟩, rfl, by decide, by decide, by decide, quiet_ready _⟩

theorem witness_ScrollForeverDoesNotReturn :
    let s : State := { readyFont with anim := some { lastCheck .forever with phase := .hold } }
    ({ lastCheck .forever with phase := .hold } : Animation).policy = .forever ∧ s.cancel = false ∧ s.cancels = [] ∧
      (∃ u, run 1 s = .next u) ∧ agentTurn s = .foreground ∧ s.pending = [] ∧ (lastCheck .forever).sub = 5 ∧
      (lastCheck .forever).pair + 1 = (lastCheck .forever).count :=
  ⟨rfl, rfl, rfl, exists_next (by decide +kernel), by decide, rfl, rfl, rfl⟩

theorem witness_StepRunsTheDecodedCommand :
    let s : State := { ready with commands := [1, 2, 7] }
    agentTurn s = .foreground ∧ ForegroundFree s ∧ decode s.commands = .ok (.setOrientation 2, [7]) := ⟨by decide, ⟨rfl, rfl⟩, rfl⟩

theorem witness_FetchWordRunsItsInstruction : decodeTableWord 8 7 = some .tick := by decide +kernel

theorem witness_InvalidBytesAreRefusedAndNoBytesIdle :
    8 ≤ (8 : Byte).toNat ∧ 2 ≤ (2 : Byte).toNat ∧ agentTurn ready = .foreground ∧ ForegroundFree ready ∧ ready.commands = [] ∧
      ([3, 1, 2] : List Byte) ≠ [] ∧ decode [3, 1, 2] = .error .truncated :=
  ⟨by decide, by decide, by decide, ⟨rfl, rfl⟩, rfl, by decide, rfl⟩

theorem witness_OtherAgentsTakeTheirTurns :
    (({ readyInternal with untilTick := 0 } : State).timer.isSome = true ∧ ({ readyInternal with untilTick := 0 } : State).untilTick = 0) ∧
      ¬ (({ readyInternal with cancels := [0, 3] } : State).timer.isSome = true ∧
        ({ readyInternal with cancels := [0, 3] } : State).untilTick = 0) ∧
      ({ readyInternal with cancels := [0, 3] } : State).cancels = 0 :: [3] := by decide

theorem witness_ScheduledTickCannotBePutOff :
    ({ readyInternal with untilTick := 1 } : State).timer.isSome = true ∧
      run 1 { readyInternal with untilTick := 1 } = .next { readyInternal with untilTick := 0 } :=
  ⟨rfl, of_nextOf (by decide +kernel)⟩

theorem ready_inv : ready.Inv where
  pins := fun _ => by decide
  pinMode := by decide
  timer := rfl
  rows := fun _ => .inl (by decide)
  pending := by intro h; exact absurd rfl h
  pending_le := by decide
  anim := by intro a h; cases h

theorem witness_ExternalModeHasNoTimerTick : ready.Inv ∧ ready.cfg.tmode = .external := ⟨ready_inv, rfl⟩

/-- A step of each activity that some clause is about: byte write, tick, command of each writer, canceller call, animation, idle. -/
theorem witness_EachRegisterHasItsWriters :
    (activity (torn 0) = .byteWrite 0 0x55 ∧ ∃ t, step (torn 0) = .next t) ∧
      (activity ready = .idle ∧ ∃ t, step ready = .next t) ∧
      (activity { ready with commands := [7] } = .command .tick ∧ ∃ t, step { ready with commands := [7] } = .next t) ∧
      (activity { ready with commands := [1, 3] } = .command (.setOrientation 3) ∧ ∃ t, step { ready with commands := [1, 3] } = .next t) ∧
      (activity { ready with commands := [6] } = .command .cancel ∧ ∃ t, step { ready with commands := [6] } = .next t) :=
  ⟨⟨by decide +kernel, exists_next (by decide +kernel)⟩, ⟨by decide +kernel, exists_next (by decide +kernel)⟩,
    ⟨by decide +kernel, exists_next (by decide +kernel)⟩, ⟨by decide +kernel, exists_next (by decide +kernel)⟩,
    ⟨by decide +kernel, exists_next (by decide +kernel)⟩⟩

theorem witness_DisplayOperationsFrame :
    (∃ t, exec (.dispMatrix (some bitmapB)) ready = .next t) ∧ (∃ t, exec (.dispChar 0x41) readyFont = .next t) ∧
      (∃ t, exec (.setPoint 4 7 true) ready = .next t) ∧ ∃ t, exec (.scrollText [0x41] 5 .forever) readyFont = .next t :=
  ⟨exists_next (by decide +kernel), exists_next (by decide +kernel), exists_next (by decide +kernel), exists_next (by decide +kernel)⟩

theorem witness_StepKeepsTheInvariant : ready.Inv ∧ ∃ t, step ready = .next t := ⟨ready_inv, exists_next (by decide +kernel)⟩

theorem witness_DecodeOfEncodeIsIdentity :
    (Instr.dispMatrix (some bitmapB)).WellFormed ∧ (Instr.scrollText [0x41] 0xFFFF .forever).WellFormed := by decide

theorem witness_DecodedBytesAreTheCommand : decode [4, 2, 3, 0x80, 7] = .ok (.setPoint 2 3 true, [7]) := rfl

end Sys2Proof.Tests
end

section
/-! PROOFS. Family 10_state.md: what an operation and a step may write (R9 to R20, R108), and that every step keeps the invariant
(R18, R21, R74, R86 to R88, R107). -/

namespace Sys2Proof.Machine

/-! What an operation that goes on does to the state, for the operations whose inversion the laws do not give yet. -/

theorem execInit_next {s t : State} (h : execInit s = .next t) :
    pinsDistinct s.cfg ∧ t = scheduleTimer { s with
      fb := s.cfg.fbReset, cur := 0, ori := s.cfg.oriReset, inited := true, row := rowsInactive s.cfg, col := 0xFF,
      cancel := false, pinMode := .output } := by
  obtain ⟨hp, -⟩ := requirePins_next h
  rw [execInit_of hp] at h
  cases h
  exact ⟨hp, rfl⟩

theorem execSetOrientation_next {dir : Byte} {s t : State} (h : execSetOrientation dir s = .next t) :
    s.inited = true ∧ t = { s with ori := dir } := by
  obtain ⟨hi, h'⟩ := requireInited_next h
  cases h'
  exact ⟨hi, rfl⟩

/-- A display call stages all eight byte writes (R59) or none (R60, R61). -/
theorem displayMatrix_pending_cases (bitmap : Option Bitmap) (s : State) :
    (displayMatrix bitmap s).pending = s.pending ∨ (displayMatrix bitmap s).pending.length = 8 := by
  cases bitmap with
  | none => exact .inl rfl
  | some l =>
    rw [displayMatrix_pending]
    cases xf s.cfg s.ori l with
    | none => exact .inl rfl
    | some p => exact .inr (length_bitmapWrites p)

/-- `t` is `s` but for its staged byte writes, of which there are at most eight if they are new (R59, R71). -/
def OnlyStages (s t : State) : Prop :=
  t = stageWrites s t.pending ∧ (t.pending = s.pending ∨ t.pending.length ≤ 8)

theorem displayMatrix_onlyStages (bitmap : Option Bitmap) (s : State) : OnlyStages s (displayMatrix bitmap s) :=
  ⟨displayMatrix_eq bitmap s, (displayMatrix_pending_cases bitmap s).imp_right Nat.le_of_eq⟩

/-- `t` is `s` but for its animator, which is the old one or a fresh one of 1 to 20 characters (R84, R85). -/
def OnlyAnimates (s t : State) : Prop :=
  t = s ∨ ∃ text speed policy, text ≠ [] ∧ text.length ≤ Config.maxScrollLen ∧
    t = { s with anim := some (startAnimation s.cfg text speed policy) }

/-- What an operation that goes on does, by what it may write: INIT, SET_ORIENTATION, CANCEL and TICK write their registers, DISP_MATRIX, DISP_CHAR and
SET_POINT stage byte writes, SCROLL_TEXT starts the animator. -/
theorem exec_cases {i : Instr} {s t : State} (h : exec i s = .next t) :
    (i = .init ∧ execInit s = .next t) ∨
    (∃ dir, i = .setOrientation dir ∧ t = { s with ori := dir }) ∨
    (i = .cancel ∧ t = raiseCancel s) ∨
    (i = .tick ∧ refreshTick s = .next t) ∨
    (s.inited = true ∧ OnlyStages s t) ∨
    (s.inited = true ∧ OnlyAnimates s t) := by
  cases i with
  | init => exact .inl ⟨rfl, h⟩
  | setOrientation dir => exact .inr (.inl ⟨dir, rfl, (execSetOrientation_next h).2⟩)
  | cancel => cases h; exact .inr (.inr (.inl ⟨rfl, rfl⟩))
  | tick => exact .inr (.inr (.inr (.inl ⟨rfl, h⟩)))
  | dispChar ch =>
    obtain ⟨hi, -, rfl⟩ := execDispChar_next h
    exact .inr (.inr (.inr (.inr (.inl ⟨hi, displayMatrix_onlyStages _ s⟩))))
  | dispMatrix bitmap =>
    obtain ⟨hi, rfl⟩ := execDispMatrix_next h
    exact .inr (.inr (.inr (.inr (.inl ⟨hi, displayMatrix_onlyStages _ s⟩))))
  | setPoint x y on =>
    refine .inr (.inr (.inr (.inr (.inl ?_))))
    obtain ⟨hi, ⟨-, rfl⟩ | ⟨idx, bit, -, rfl⟩⟩ := execSetPoint_next h
    · exact ⟨hi, rfl, .inl rfl⟩
    · exact ⟨hi, rfl, .inr (by simp)⟩
  | scrollText text speed policy =>
    refine .inr (.inr (.inr (.inr (.inr ?_))))
    obtain ⟨hi, ⟨-, rfl⟩ | ⟨-, -, rfl⟩ | ⟨hne, hle, -, rfl⟩⟩ := execScrollText_next h
    · exact ⟨hi, .inl rfl⟩
    · exact ⟨hi, .inl rfl⟩
    · exact ⟨hi, .inr ⟨text, speed, policy, hne, hle, rfl⟩⟩

/-! Who writes what. -/

/-- From `s` to `t` an activity has written only what 10_state.md R9 to R20 and 60_exceptions.md R108 let it write. -/
structure WrittenBy (act : Activity) (s t : State) : Prop where
  cfg : t.cfg = s.cfg
  byte : ∀ i v, act = .byteWrite i v → t.fb = s.fb.set i.val v
  fb : (∀ i v, act ≠ .byteWrite i v) → act ≠ .command .init → t.fb = s.fb
  scan : act ≠ .timerTick → act ≠ .command .tick → act ≠ .command .init → t.cur = s.cur ∧ t.row = s.row ∧ t.col = s.col
  ori : (∀ dir, act ≠ .command (.setOrientation dir)) → act ≠ .command .init → t.ori = s.ori
  control : act ≠ .command .init → t.inited = s.inited ∧ t.pinMode = s.pinMode ∧ t.timer = s.timer
  cancel : act ≠ .cancellerCall → act ≠ .animation → act ≠ .command .cancel → act ≠ .command .init → t.cancel = s.cancel

/-- INIT may write everything but the parameters. -/
theorem init_writtenBy {s t : State} (h : execInit s = .next t) : WrittenBy (.command .init) s t := by
  obtain ⟨-, rfl⟩ := execInit_next h
  constructor <;> simp

/-- A tick, of the timer or of a TICK command, writes the cursor and the pins (R11, R16). -/
theorem refreshTick_writtenBy {act : Activity} (hact : act = .timerTick ∨ act = .command .tick) {s t : State}
    (h : refreshTick s = .next t) : WrittenBy act s t := by
  obtain ⟨-, -, rfl⟩ := refreshTick_next h
  obtain rfl | rfl := hact <;> constructor <;> simp

theorem timerTick_writtenBy {s t : State} (h : timerTick s = .next t) : WrittenBy .timerTick s t := by
  have hw := refreshTick_writtenBy (.inl rfl) h
  constructor <;> simp [hw.cfg, hw.fb, hw.ori, hw.control, hw.cancel]

theorem cancellerTurn_writtenBy (s : State) : WrittenBy .cancellerCall s (cancellerTurn s) := by
  constructor <;> simp

/-- A byte write changes its one byte of the Frame Buffer (R9). -/
theorem writeFb_writtenBy (s : State) (i : Index) (v : Byte) (ws : List FbWrite) :
    WrittenBy (.byteWrite i v) s (writeFb (stageWrites s ws) i v) where
  cfg := rfl
  byte := by rintro _ _ ⟨⟩; rfl
  fb h := absurd rfl (h i v)
  scan _ _ _ := ⟨rfl, rfl, rfl⟩
  ori _ _ := rfl
  control _ := ⟨rfl, rfl, rfl⟩
  cancel _ _ _ _ := rfl

theorem animationStep_writtenBy (a : Animation) (s : State) : WrittenBy .animation s (animationStep a s) := by
  constructor <;> simp

theorem exec_writtenBy {i : Instr} {s t : State} (h : exec i s = .next t) : WrittenBy (.command i) s t := by
  obtain ⟨rfl, h⟩ | ⟨dir, rfl, rfl⟩ | ⟨rfl, rfl⟩ | ⟨rfl, h⟩ | ⟨-, h, -⟩ | ⟨-, rfl | ⟨_, _, _, -, -, rfl⟩⟩ := exec_cases h
  · exact init_writtenBy h
  · constructor <;> simp
  · constructor <;> simp
  · exact refreshTick_writtenBy (.inr rfl) h
  · rw [h]; constructor <;> simp
  · constructor <;> simp
  · constructor <;> simp

theorem step_writtenBy {s t : State} (h : step s = .next t) : WrittenBy (activity s) s t := by
  obtain ⟨hact, h⟩ | ⟨hact, rfl⟩ | ⟨i, v, ws, hact, -, rfl⟩ | ⟨a, hact, -, -, rfl⟩ | ⟨hact, -, -, rfl⟩ | ⟨i, rest, hact, -, -, h⟩ :=
    step_cases h <;> rw [hact]
  · exact timerTick_writtenBy h
  · exact cancellerTurn_writtenBy s
  · exact { writeFb_writtenBy (passTurn s) i v ws with }
  · exact { animationStep_writtenBy a (passTurn s) with }
  · constructor <;> simp
  · exact { exec_writtenBy h with }

/-- Settles O54: every activity of a step keeps to its own registers. -/
theorem eachRegisterHasItsWriters : Obligations.EachRegisterHasItsWriters := by
  intro s t h
  obtain ⟨hcfg, hbyte, hfb, hscan, hori, hcontrol, hcancel⟩ := step_writtenBy h
  exact ⟨hcfg, hbyte, hfb, hscan, hori, hcontrol, hcancel⟩

/-! The animator stays sound (R86 to R88). -/

theorem startAnimation_sound (cfg : Config) {text : List Byte} (speed : BitVec 16) (policy : Policy) (hne : text ≠ [])
    (hle : text.length ≤ Config.maxScrollLen) : (startAnimation cfg text speed policy).Sound where
  count_pos := List.length_pos_iff.mpr hne
  count_le := hle
  length_glyphs := length_glyphBuffer cfg text
  pair_lt := List.length_pos_iff.mpr hne
  sub_lt := Nat.zero_lt_succ _
  regs_eq r hr := by simp [startAnimation, getElem_pairRegs]

theorem loadPair_sound {a : Animation} (ha : a.Sound) {p : Nat} (hp : p < a.count) : (loadPair a p).Sound :=
  { ha with
    pair_lt := hp
    sub_lt := Nat.zero_lt_succ _
    regs_eq := fun r hr => by simp [loadPair, getElem_pairRegs] }

/-- One shift of the registers belongs to one more sub-frame (R88). -/
theorem shiftRegs_sound {a : Animation} (ha : a.Sound) (hsub : a.sub + 1 < Config.subframes) :
    ({ a with sub := a.sub + 1, regs := shiftRegs a.regs, phase := .check } : Animation).Sound :=
  { ha with
    sub_lt := hsub
    regs_eq := fun r hr => by rw [getElem_shiftRegs, ha.regs_eq r hr, BitVec.shiftLeft_add] }

theorem nextSubframe_sound {a b : Animation} (ha : a.Sound) (h : nextSubframe a = some b) : b.Sound := by
  unfold nextSubframe at h
  split at h
  · cases h; exact shiftRegs_sound ha ‹_›
  · split at h
    · cases h; exact loadPair_sound ha ‹_›
    · split at h
      · cases h
      · cases h; exact loadPair_sound ha ha.count_pos

/-! The invariant, kept by each thing a step can do. -/

theorem passTurn_keeps_inv {s : State} (hs : s.Inv) : (passTurn s).Inv := { hs with }

theorem drawGap_keeps_inv {s : State} (hs : s.Inv) : (drawGap s).Inv := by
  unfold drawGap
  split <;> exact { hs with }

theorem stageWrites_keeps_inv {s : State} (hs : s.Inv) (hi : s.inited = true) {ws : List FbWrite} (hws : ws.length ≤ 8) :
    (stageWrites s ws).Inv :=
  { hs with
    pending := fun _ => hi
    pending_le := hws }

theorem onlyStages_keeps_inv {s t : State} (hs : s.Inv) (hi : s.inited = true) (h : OnlyStages s t) : t.Inv := by
  obtain ⟨ht, hlen⟩ := h
  rw [ht]
  refine stageWrites_keeps_inv hs hi ?_
  obtain heq | hle := hlen
  · rw [heq]; exact hs.pending_le
  · exact hle

theorem withAnim_keeps_inv {s : State} (hs : s.Inv) (hi : s.inited = true) {o : Option Animation}
    (ho : ∀ a, o = some a → a.Sound) : ({ s with anim := o } : State).Inv :=
  { hs with anim := fun a ha => ⟨hi, ho a ha⟩ }

theorem onlyAnimates_keeps_inv {s t : State} (hs : s.Inv) (hi : s.inited = true) (h : OnlyAnimates s t) : t.Inv := by
  obtain rfl | ⟨text, speed, policy, hne, hle, rfl⟩ := h
  · exact hs
  · exact withAnim_keeps_inv hs hi (by rintro _ ⟨⟩; exact startAnimation_sound _ speed policy hne hle)

/-- A sub-frame ends the animation (R91), pushes its frame (R88), or goes on to the next (R88, R92). -/
theorem animationStep_keeps_inv {a : Animation} {s : State} (hs : s.Inv) (hi : s.inited = true) (ha : a.Sound) :
    (animationStep a s).Inv := by
  unfold animationStep
  split
  · split
    · exact { hs with anim := by rintro _ ⟨⟩ }
    · have hpush := onlyStages_keeps_inv hs hi (displayMatrix_onlyStages (some (frameOf a.regs)) s)
      exact withAnim_keeps_inv hpush (by simpa using hi) (by rintro _ ⟨⟩; exact { ha with })
  · exact withAnim_keeps_inv hs hi fun _ => nextSubframe_sound ha

/-- The oldest byte write lands (R59). -/
theorem writeFb_keeps_inv {s : State} {i : Index} {v : Byte} {ws : List FbWrite} (hs : s.Inv) (hp : s.pending = (i, v) :: ws) :
    (writeFb (stageWrites s ws) i v).Inv := by
  have hi : s.inited = true := hs.pending (by simp [hp])
  have hlen : ws.length ≤ 8 := by have := hs.pending_le; simp [hp] at this; omega
  exact { stageWrites_keeps_inv hs hi hlen with }

/-- After a tick exactly the row line before the new cursor is active (R18). -/
theorem refreshTick_keeps_inv {s t : State} (hs : s.Inv) (h : refreshTick s = .next t) : t.Inv := by
  obtain ⟨-, -, rfl⟩ := refreshTick_next h
  exact { hs with rows := fun _ => .inr (by simp) }

/-- INIT leaves no row line active (R73), the pins distinct outputs (R74, R107) and the timer running exactly under INTERNAL. -/
theorem execInit_keeps_inv {s t : State} (hs : s.Inv) (h : execInit s = .next t) : t.Inv := by
  obtain ⟨hp, rfl⟩ := execInit_next h
  have htimer : s.timer = none ∨ s.timer = some s.cfg.tTick := by rw [hs.timer]; split <;> simp
  exact {
    pins := fun _ => by simpa using hp
    pinMode := by simp
    timer := by
      cases hm : s.cfg.tmode with
      | external => simp [hm, hs.timer]
      | internal => obtain h | h := htimer <;> simp [hm, h]
    rows := fun _ => .inl (by simp)
    pending := by simp
    pending_le := by simpa using hs.pending_le
    anim := fun a ha => ⟨by simp, (hs.anim a (by simpa using ha)).2⟩ }

theorem exec_keeps_inv {i : Instr} {s t : State} (hs : s.Inv) (h : exec i s = .next t) : t.Inv := by
  obtain ⟨-, h⟩ | ⟨dir, -, rfl⟩ | ⟨-, rfl⟩ | ⟨-, h⟩ | ⟨hi, h⟩ | ⟨hi, h⟩ := exec_cases h
  · exact execInit_keeps_inv hs h
  · exact { hs with }
  · exact { hs with }
  · exact refreshTick_keeps_inv hs h
  · exact onlyStages_keeps_inv hs hi h
  · exact onlyAnimates_keeps_inv hs hi h

theorem step_keeps_inv {s t : State} (hs : s.Inv) (h : step s = .next t) : t.Inv := by
  have hpass : (passTurn s).Inv := passTurn_keeps_inv hs
  obtain ⟨-, h⟩ | ⟨-, rfl⟩ | ⟨i, v, ws, -, hp, rfl⟩ | ⟨a, -, -, ha, rfl⟩ | ⟨-, -, -, rfl⟩ | ⟨i, rest, -, -, -, h⟩ := step_cases h
  · exact refreshTick_keeps_inv (drawGap_keeps_inv hs) h
  · exact { hs with }
  · exact writeFb_keeps_inv hpass hp
  · obtain ⟨hi, hsound⟩ := hs.anim a ha
    exact animationStep_keeps_inv hpass hi hsound
  · exact hpass
  · have hfetched : ({ passTurn s with commands := rest } : State).Inv := { hpass with }
    exact exec_keeps_inv hfetched h

/-- Settles O56, by the cases of a step. -/
theorem stepKeepsTheInvariant : Obligations.StepKeepsTheInvariant := fun _ _ => step_keeps_inv

/-! Reset. -/

/-- Settles O1: each clause is a field of the state at reset (R21). -/
theorem resetIsBeforeInit : Obligations.ResetIsBeforeInit := ⟨rfl, rfl, rfl, ⟨rfl, rfl⟩, rfl⟩

/-- Settles O57: before INIT the clauses about an initialized machine are idle (R21), and nothing is staged or running. -/
theorem resetSatisfiesTheInvariant : Obligations.ResetSatisfiesTheInvariant where
  pins h := nomatch h
  pinMode := by simp [State.reset]
  timer := rfl
  rows h := nomatch h
  pending h := absurd rfl h
  pending_le := Nat.zero_le 8
  anim _ h := nomatch h

end Sys2Proof.Machine
end

section
/-! PROOFS. Family 20_memory.md: a command is run on the turn of a free foreground (R30, R36), and every byte of the Frame Buffer is shown
within eight ticks (R33). -/

namespace Sys2Proof.Machine

/-! The turn of a free foreground (R30). -/

/-- A free foreground runs the command it fetches (R30, R36). -/
theorem foregroundTurn_command {s : State} {i : Instr} {rest : List Byte} (hfree : ForegroundFree s)
    (hfetch : fetch s = .command i rest) : foregroundTurn s = exec i { s with commands := rest } := by
  simp only [foregroundTurn, continueOperation_free hfree, hfetch]

/-- Settles O48: the free foreground takes its turn, and what it fetches is the decoded command. -/
theorem stepRunsTheDecodedCommand : Obligations.StepRunsTheDecodedCommand := by
  intro s i rest hturn hfree hdecode
  have hfetch : fetch (passTurn s) = .command i rest := (fetch_passTurn s).trans (fetch_of_ok hdecode)
  rw [step_foreground hturn]
  exact foregroundTurn_command (s := passTurn s) hfree hfetch

/-! Consecutive ticks (R43, R48). -/

theorem exec_tick_of {s : State} (hi : s.inited = true) (hp : pinsDistinct s.cfg) :
    exec .tick s = .next { s with
      row := rowOnly s.cfg (cursorIndex s.cur), col := ~~~ s.fb[mirror (cursorIndex s.cur)], cur := s.cur + 1 } :=
  refreshTick_of hi hp

theorem ticks_succ_of_next {n : Nat} {s t : State} (h : exec .tick s = .next t) : ticks (n + 1) s = ticks n t := by
  rw [ticks, h]

/-- `n` ticks complete, move the cursor `n` on (R48), and change nothing else but the levels of the lines. -/
theorem ticks_of {s : State} (hi : s.inited = true) (hp : pinsDistinct s.cfg) (n : Nat) :
    ∃ row col, ticks n s = .next { s with row := row, col := col, cur := s.cur + BitVec.ofNat 3 n } := by
  induction n generalizing s with
  | zero => exact ⟨s.row, s.col, by simp [ticks]⟩
  | succ n ih =>
    rw [ticks_succ_of_next (exec_tick_of hi hp)]
    have hcur : s.cur + 1 + BitVec.ofNat 3 n = s.cur + BitVec.ofNat 3 (n + 1) := by
      rw [BitVec.add_assoc, Nat.add_comm n 1, BitVec.ofNat_add]
      rfl
    rw [← hcur]
    exact ih hi hp

/-- From any cursor, fewer than eight ticks away the cursor is at any index asked for (R33, R48). -/
theorem exists_ticks_to_index (c : BitVec 3) (i : Index) : ∃ k, k < 8 ∧ cursorIndex (c + BitVec.ofNat 3 k) = i := by
  refine ⟨(BitVec.ofFin i - c).toNat, BitVec.isLt _, ?_⟩
  rw [BitVec.ofNat_toNat, BitVec.setWidth_eq, BitVec.add_comm, BitVec.sub_add_cancel]
  rfl

/-- Settles O15: the cursor comes to `7 - i` within eight ticks that leave the Frame Buffer alone, and the tick at that cursor shows FB[i]. -/
theorem writtenByteIsShownWithinEightTicks : Obligations.WrittenByteIsShownWithinEightTicks := by
  intro s i hi hp
  obtain ⟨k, hk, hcur⟩ := exists_ticks_to_index s.cur (mirror i)
  obtain ⟨row, col, hticks⟩ := ticks_of hi hp k
  refine ⟨k, hk, _, _, hticks, hcur, exec_tick_of hi hp, ?_, ?_⟩
  · simp only [hcur, mirror_mirror]
  · rw [rowIsActive, rowOnly_active, hcur, decide_eq_true rfl]

end Sys2Proof.Machine
end

section
/-! PROOFS. Family 30_encoding.md: the decoder is the encoder's inverse up to SET_POINT's `on` byte (R36 to R41), and a command placed for the
fetch is the one that runs. -/

namespace Sys2Proof

/-! Decoding what the encoder writes (R37, R38). -/

/-- A bitmap's eight bytes decode to it (R38). -/
theorem decode_dispMatrix (bitmap : Bitmap) (rest : List Byte) :
    decode (0x03 :: bitmap.toList ++ rest) = .ok (.dispMatrix (some bitmap), rest) := by
  obtain ⟨⟨bytes⟩, hsize⟩ := bitmap
  match bytes, hsize with
  | [_, _, _, _, _, _, _, _], _ => rfl

/-- A text behind its own length decodes to it, whatever follows (R37, R38, R41). -/
theorem decodeScroll_append {text rest : List Byte} {p hi lo len : Byte} {policy : Policy} (hp : decodePolicy p = .ok policy)
    (hlen : len.toNat = text.length) :
    decodeScroll (p :: hi :: lo :: len :: (text ++ rest)) = .ok (.scrollText text (hi ++ lo) policy, rest) := by
  simp [decodeScroll, hp, hlen]

theorem decode_encode_append {i : Instr} (hi : i.WellFormed) (rest : List Byte) : decode (encode i ++ rest) = .ok (i, rest) := by
  cases i with
  | init => rfl
  | setOrientation dir => rfl
  | dispChar ch => rfl
  | dispMatrix bitmap =>
    cases bitmap with
    | none => cases hi
    | some bitmap => exact decode_dispMatrix bitmap rest
  | setPoint x y on => cases on <;> rfl
  | scrollText text speed policy =>
    have hlen : (BitVec.ofNat 8 text.length).toNat = text.length := toNat_ofNat_length (of_decide_eq_true hi)
    have hdecode := decodeScroll_append (rest := rest) (hi := speed.extractLsb' 8 8) (lo := speed.extractLsb' 0 8)
      (decodePolicy_encodePolicy policy) hlen
    rwa [speed_append] at hdecode
  | cancel => rfl
  | tick => rfl

/-- Settles O58, by the cases of the operation: the format's two lists are the bitmap (R38) and the text behind its length (R41). -/
theorem decodeOfEncodeIsIdentity : Obligations.DecodeOfEncodeIsIdentity := fun _ rest hi => decode_encode_append hi rest

/-! What bytes spell an operation. -/

/-- The bytes of one command: the encoder's, or SET_POINT's with any `on` byte (R38). -/
inductive Spells : List Byte → Instr → Prop
  | encoded {i : Instr} (hi : i.WellFormed) : Spells (encode i) i
  | setPoint (x y b : Byte) : Spells [4, x, y, b] (.setPoint x y (b != 0))

/-- Bytes that spell an operation decode to it, whatever follows. -/
theorem Spells.decode_append {used : List Byte} {i : Instr} (h : Spells used i) (rest : List Byte) :
    decode (used ++ rest) = .ok (i, rest) := by
  cases h with
  | encoded hi => exact decode_encode_append hi rest
  | setPoint x y b => rfl

theorem Spells.wellFormed {used : List Byte} {i : Instr} (h : Spells used i) : i.WellFormed := by
  cases h with
  | encoded hi => exact hi
  | setPoint x y b => rfl

/-- A well-formed operation's bytes have its length (R41). -/
theorem length_encode {i : Instr} (hi : i.WellFormed) : (encode i).length = commandLength i := by
  cases i with
  | init => exact (Laws.CommandShape.init hi).2
  | setOrientation dir => exact (Laws.CommandShape.setOrientation dir hi).2
  | dispChar ch => exact (Laws.CommandShape.dispChar ch hi).2
  | dispMatrix bitmap => exact (Laws.CommandShape.dispMatrix bitmap hi).2
  | setPoint x y on => exact (Laws.CommandShape.setPoint x y on hi).2
  | scrollText text speed policy => exact (Laws.CommandShape.scrollText text speed policy hi).2
  | cancel => exact (Laws.CommandShape.cancel hi).2
  | tick => exact (Laws.CommandShape.tick hi).2

theorem Spells.length {used : List Byte} {i : Instr} (h : Spells used i) : used.length = commandLength i := by
  cases h with
  | encoded hi => exact length_encode hi
  | setPoint x y b => rfl

theorem Spells.eq_encode {used : List Byte} {i : Instr} (h : Spells used i) (hne : ∀ x y on, i ≠ .setPoint x y on) :
    used = encode i := by
  cases h with
  | encoded hi => rfl
  | setPoint x y b => exact absurd rfl (hne x y _)

theorem Spells.eq_of_setPoint {used : List Byte} {x y : Byte} {on : Bool} (h : Spells used (.setPoint x y on)) :
    ∃ b : Byte, used = [4, x, y, b] ∧ on = (b != 0) := by
  cases h with
  | encoded hi => exact ⟨_, rfl, by cases on <;> rfl⟩
  | setPoint x y b => exact ⟨b, rfl, rfl⟩

/-! What the decoder accepts (R36 to R41). -/

/-- Only a policy's own byte decodes to it (R40). -/
theorem eq_encodePolicy_of_decodePolicy {p : Byte} {policy : Policy} (h : decodePolicy p = .ok policy) : p = encodePolicy policy := by
  unfold decodePolicy at h
  split at h
  · cases h; assumption
  · split at h
    · cases h; assumption
    · cases h

/-- What decodes as SCROLL_TEXT's operands is the encoder's bytes after its opcode (R37, R38). -/
theorem spells_of_decodeScroll {args rest : List Byte} {i : Instr} (h : decodeScroll args = .ok (i, rest)) :
    ∃ used, 5 :: args = used ++ rest ∧ Spells used i := by
  unfold decodeScroll at h
  split at h
  next p hi lo len tail =>
    split at h
    · cases h
    next policy hp =>
      split at h
      · cases h
      next hle =>
        cases h
        have hlen : (tail.take len.toNat).length = len.toNat := by simp; omega
        have hwf : (Instr.scrollText (tail.take len.toNat) (hi ++ lo) policy).WellFormed :=
          decide_eq_true (by have := len.isLt; omega)
        refine ⟨_, ?_, .encoded hwf⟩
        have hhi : (hi ++ lo).extractLsb' 8 8 = hi := BitVec.extractLsb'_append_eq_left
        have hlo : (hi ++ lo).extractLsb' 0 8 = lo := BitVec.extractLsb'_append_eq_right
        simp [encode, hlen, eq_encodePolicy_of_decodePolicy hp, hhi, hlo]
  · cases h

/-- What the decoder accepts is a command's bytes and what follows them: one case per opcode (R37), the others being refused. -/
theorem spells_of_decode {bytes rest : List Byte} {i : Instr} (h : decode bytes = .ok (i, rest)) :
    ∃ used, bytes = used ++ rest ∧ Spells used i := by
  revert h
  fun_cases decode bytes with
  | case1 | case4 | case6 | case8 | case10 | case14 => exact nofun
  | case2 op args hop =>
    obtain rfl : op = 0 := BitVec.eq_of_toNat_eq hop
    rintro ⟨⟩
    exact ⟨encode .init, rfl, .encoded rfl⟩
  | case3 op hop dir tail =>
    obtain rfl : op = 1 := BitVec.eq_of_toNat_eq hop
    rintro ⟨⟩
    exact ⟨encode (.setOrientation dir), rfl, .encoded rfl⟩
  | case5 op hop ch tail =>
    obtain rfl : op = 2 := BitVec.eq_of_toNat_eq hop
    rintro ⟨⟩
    exact ⟨encode (.dispChar ch), rfl, .encoded rfl⟩
  | case7 op hop b0 b1 b2 b3 b4 b5 b6 b7 tail =>
    obtain rfl : op = 3 := BitVec.eq_of_toNat_eq hop
    rintro ⟨⟩
    exact ⟨encode (.dispMatrix (some #v[b0, b1, b2, b3, b4, b5, b6, b7])), rfl, .encoded rfl⟩
  | case9 op hop x y on tail =>
    obtain rfl : op = 4 := BitVec.eq_of_toNat_eq hop
    rintro ⟨⟩
    exact ⟨[4, x, y, on], rfl, .setPoint x y on⟩
  | case11 op args hop =>
    obtain rfl : op = 5 := BitVec.eq_of_toNat_eq hop
    exact spells_of_decodeScroll
  | case12 op args hop =>
    obtain rfl : op = 6 := BitVec.eq_of_toNat_eq hop
    rintro ⟨⟩
    exact ⟨encode .cancel, rfl, .encoded rfl⟩
  | case13 op args hop =>
    obtain rfl : op = 7 := BitVec.eq_of_toNat_eq hop
    rintro ⟨⟩
    exact ⟨encode .tick, rfl, .encoded rfl⟩

/-- Settles O59: the bytes the decoder takes spell the operation. -/
theorem decodedBytesAreTheCommand : Obligations.DecodedBytesAreTheCommand := by
  intro bytes rest i h
  obtain ⟨used, hbytes, hspells⟩ := spells_of_decode h
  refine ⟨hspells.wellFormed, used, hbytes, hspells.length, hspells.eq_encode, ?_⟩
  rintro x y on rfl
  exact hspells.eq_of_setPoint

/-- Settles O60: each sample is read off the opcode table (R37). -/
theorem sampleCommandsDecode : Obligations.SampleCommandsDecode := ⟨rfl, rfl, rfl, rfl, rfl, rfl, rfl, rfl⟩

/-! Bytes that spell no command (R39, R40). -/

theorem decode_reserved {op : Byte} (h : 8 ≤ op.toNat) (args : List Byte) : decode (op :: args) = .error (.opcode op) := by
  obtain ⟨n, hn⟩ := Nat.exists_eq_add_of_le' h
  simp only [decode, hn]

theorem decode_five (args : List Byte) : decode (5 :: args) = decodeScroll args := rfl

theorem decodePolicy_reserved {p : Byte} (h : 2 ≤ p.toNat) : decodePolicy p = .error (.policy p) := by
  have h0 : p ≠ 0 := by rintro rfl; simp at h
  have h1 : p ≠ 1 := by rintro rfl; simp at h
  rw [decodePolicy, if_neg h0, if_neg h1]

theorem decode_reservedPolicy {p : Byte} (h : 2 ≤ p.toNat) (hi lo len : Byte) (rest : List Byte) :
    decode (5 :: p :: hi :: lo :: len :: rest) = .error (.policy p) := by
  rw [decode_five, decodeScroll, decodePolicy_reserved h]

/-! A command placed for the fetch (log 1). -/

@[simp] theorem length_tableBytes (nbits w : Nat) : (tableBytes nbits w).length = maxCommandBytes := by simp [tableBytes]

/-- What is placed is exactly the bytes of the command the table word spells. -/
theorem spells_commandBytes {nbits w : Nat} {i : Instr} (h : decodeTableWord nbits w = some i) : Spells (commandBytes nbits w) i := by
  unfold decodeTableWord at h
  unfold commandBytes
  cases hdecode : decode (tableBytes nbits w) with
  | error why => rw [hdecode] at h; cases h
  | ok found =>
    obtain ⟨j, rest⟩ := found
    rw [hdecode] at h
    cases h
    obtain ⟨used, hbytes, hspells⟩ := spells_of_decode hdecode
    have hlen : maxCommandBytes - rest.length = used.length := by
      rw [← length_tableBytes nbits w, hbytes, List.length_append, Nat.add_sub_cancel]
    simpa only [hlen, hbytes, List.take_left'] using hspells

end Sys2Proof

namespace Sys2Proof.Machine

/-- Placing bytes makes the next turn the foreground's. -/
theorem agentTurn_loadCommand (s : State) (bytes : List Byte) : agentTurn (loadCommand s bytes) = .foreground := by
  have htick : tickDue (loadCommand s bytes) = false := by
    cases ht : s.timer <;> simp [tickDue, ht]
  have hcancel : cancelDue (loadCommand s bytes) = false := by
    cases hc : s.cancels <;> simp [cancelDue, loadCommand_cancels, hc]
  simp [agentTurn, htick, hcancel]

/-- That turn gives the countdowns back. -/
theorem passTurn_loadCommand (s : State) (bytes : List Byte) :
    passTurn (loadCommand s bytes) = { s with commands := bytes ++ s.commands, pending := [], anim := none } := by
  cases ht : s.timer <;> cases hc : s.cancels <;> simp [passTurn, nearerTick, loadCommand, ht, hc]

/-- Settles O49: the placed bytes spell the operation, so they decode to it with the rest of the program after it (R36, R37). -/
theorem fetchWordRunsItsInstruction : Obligations.FetchWordRunsItsInstruction := by
  intro s nbits w i h
  have hdecode : decode (s.withFetchWord nbits w).commands = .ok (i, s.commands) := (spells_commandBytes h).decode_append s.commands
  have hstep := stepRunsTheDecodedCommand _ i s.commands (agentTurn_loadCommand s (commandBytes nbits w)) ⟨rfl, rfl⟩ hdecode
  rwa [passTurn_loadCommand] at hstep

/-! The turn of a free foreground that has no command to run. -/

/-- Bytes that spell no command are refused (R39 to R41). -/
theorem foregroundTurn_invalid {s : State} {why : Reject} (hfree : ForegroundFree s) (hfetch : fetch s = .invalid why) :
    foregroundTurn s = .refused (.invalidCommand why) := by
  simp only [foregroundTurn, continueOperation_free hfree, hfetch]

/-- With no bytes left the foreground idles (log 14). -/
theorem foregroundTurn_idle {s : State} (hfree : ForegroundFree s) (hfetch : fetch s = .nothing) : foregroundTurn s = .next s := by
  simp only [foregroundTurn, continueOperation_free hfree, hfetch]

/-- Settles O50: what the decoder refuses is invalid to the fetch, and no bytes are nothing to it. -/
theorem invalidBytesAreRefusedAndNoBytesIdle : Obligations.InvalidBytesAreRefusedAndNoBytesIdle := by
  refine ⟨fun _ rest h => decode_reserved h rest, fun _ hi lo len rest h => decode_reservedPolicy h hi lo len rest, ?_, ?_⟩
  · intro s why hturn hfree hne hdecode
    rw [step_foreground hturn]
    exact foregroundTurn_invalid (s := passTurn s) hfree ((fetch_passTurn s).trans (fetch_of_error hne hdecode))
  · intro s hturn hfree hnil
    rw [step_foreground hturn]
    exact foregroundTurn_idle (s := passTurn s) hfree ((fetch_passTurn s).trans (fetch_of_nil hnil))

end Sys2Proof.Machine
end

section
/-! PROOFS. Family 40_refresh_multiplexer.md: what one tick shows (R44 to R47, R49), no row with another row's pattern in between (R50), and what
eight ticks in a row do (R48, R51). -/

namespace Sys2Proof.Machine

/-! One tick. -/

theorem exec_tick_next {s t : State} (h : exec .tick s = .next t) :
    s.inited = true ∧ pinsDistinct s.cfg ∧ t = { s with
      row := rowOnly s.cfg (cursorIndex s.cur), col := ~~~ s.fb[mirror (cursorIndex s.cur)], cur := s.cur + 1 } :=
  refreshTick_next h

/-- Exactly the row line of the old cursor is active after a tick (R47). -/
theorem rowIsActive_of_exec_tick {s t : State} (h : exec .tick s = .next t) (r : Index) :
    rowIsActive t r = decide (r = cursorIndex s.cur) := by
  obtain ⟨-, -, rfl⟩ := exec_tick_next h
  exact rowOnly_active s.cfg (cursorIndex s.cur) r

/-- All eight bits of the byte shown are inverted on the columns (R46). -/
theorem getLsbD_col_of_exec_tick {s t : State} (h : exec .tick s = .next t) (c : Index) :
    t.col.getLsbD c.val = !(s.fb[mirror (cursorIndex s.cur)]).getLsbD c.val := by
  obtain ⟨-, -, rfl⟩ := exec_tick_next h
  rw [BitVec.getLsbD_not, decide_eq_true c.isLt, Bool.true_and]

/-- After a tick an LED is lit when it is in the row shown and its Frame Buffer bit is set (R17, R25). -/
theorem lit_of_exec_tick {s t : State} (h : exec .tick s = .next t) (r c : Index) :
    lit t r c = (decide (r = cursorIndex s.cur) && (s.fb[mirror r]).getLsbD c.val) := by
  rw [lit, rowIsActive_of_exec_tick h, getLsbD_col_of_exec_tick h, Bool.not_not]
  by_cases hr : r = cursorIndex s.cur
  · rw [hr]
  · simp only [hr, decide_false, Bool.false_and]

/-- Settles O8: the tick's next state is known, and its one active row line is the old cursor's. -/
theorem tickShowsOneRow : Obligations.TickShowsOneRow := by
  intro s hi hp
  have h := exec_tick_of hi hp
  exact ⟨_, h, rowIsActive_of_exec_tick h, rfl, rfl, rfl⟩

/-- Settles O9, bit by bit. -/
theorem tickInvertsAllEightBits : Obligations.TickInvertsAllEightBits := by
  intro s k hi hp
  have h := exec_tick_of hi hp
  exact ⟨_, h, getLsbD_col_of_exec_tick h k⟩

/-- Settles O11: the tick's next state is built from the parameters, the cursor and the Frame Buffer, and overwrites ROW and COL. -/
theorem tickIgnoresOrientationAndOldLevels : Obligations.TickIgnoresOrientationAndOldLevels := by
  intro s t ori row col h
  obtain ⟨hi, hp, rfl⟩ := exec_tick_next h
  exact exec_tick_of (s := { s with ori := ori, row := row, col := col }) hi hp

/-! Within one tick (R50). -/

@[simp] theorem length_rowsOff (cfg : Config) : (rowsOff cfg).length = 8 := by simp [rowsOff]

@[simp] theorem length_columnWrites (v : Byte) : (columnWrites v).length = 8 := by simp [columnWrites]

/-- The first `n` pin writes of a tick end while rows are turned off, while columns are written, or after the row is turned on (R44, R45). -/
theorem take_tickPinWrites_cases (cfg : Config) (c : Index) (v : Byte) (n : Nat) :
    (tickPinWrites cfg c v).take n = (rowsOff cfg).take n ∨
      (∃ m, (tickPinWrites cfg c v).take n = rowsOff cfg ++ (columnWrites v).take m) ∨
      (tickPinWrites cfg c v).take n = tickPinWrites cfg c v := by
  have hlen : (rowsOff cfg ++ columnWrites v).length = 16 := by simp
  by_cases hrows : n ≤ 8
  · refine .inl ?_
    rw [tickPinWrites, List.take_append_of_le_length (by omega), List.take_append_of_le_length (by simpa using hrows)]
  by_cases hcols : n ≤ 16
  · refine .inr (.inl ⟨n - 8, ?_⟩)
    rw [tickPinWrites, List.take_append_of_le_length (by omega), List.take_append, length_rowsOff,
      List.take_of_length_le (by rw [length_rowsOff]; omega)]
  · refine .inr (.inr (List.take_of_length_le ?_))
    rw [tickPinWrites, List.length_append, hlen, List.length_singleton]
    omega

/-- While a tick turns rows off the columns stay as they were (R50). -/
theorem writePins_take_rowsOff_col (s : State) (n : Nat) : (writePins s ((rowsOff s.cfg).take n)).col = s.col := by
  rw [rowsOff, ← List.map_take, writePins_rows_col]

/-- While a tick turns rows off no row line becomes active (R50). -/
theorem rowIsActive_of_take_rowsOff {s : State} {n : Nat} {r : Index}
    (h : rowIsActive (writePins s ((rowsOff s.cfg).take n)) r = true) : rowIsActive s r = true := by
  rw [rowIsActive, rowsOff, ← List.map_take, getLsbD_writePins_rows, writePins_cfg] at h
  split at h
  · simp at h
  · exact h

/-- While a tick writes columns no row line is active (R50). -/
theorem rowIsActive_take_columnWrites (s : State) (v : Byte) (m : Nat) (r : Index) :
    rowIsActive (writePins s (rowsOff s.cfg ++ (columnWrites v).take m)) r = false := by
  rw [rowIsActive, writePins_append, writePins_rowsOff, columnWrites, ← List.map_take, writePins_cols_row, writePins_cfg,
    getLsbD_rowsInactive _ _ r.isLt]
  cases s.cfg.rowActive <;> rfl

/-- Settles O13, by where the writes stop: only the old row can be active before the columns change, none while they do, and the new row only after. -/
theorem tickNeverGhosts : Obligations.TickNeverGhosts := by
  intro s old r n hold v hactive
  obtain hv | ⟨m, hv⟩ | hv := take_tickPinWrites_cases s.cfg (cursorIndex s.cur) (scannedPattern s) n
  · simp only [v, hv] at hactive ⊢
    exact .inl ⟨hold r (rowIsActive_of_take_rowsOff hactive), writePins_take_rowsOff_col s n⟩
  · simp only [v, hv, rowIsActive_take_columnWrites, Bool.false_eq_true] at hactive
  · simp only [v, hv, writePins_tick] at hactive ⊢
    rw [rowIsActive, rowOnly_active] at hactive
    exact .inr ⟨of_decide_eq_true hactive, rfl⟩

/-! Eight ticks in a row. -/

/-- How many ticks from cursor `c` the row line `r` is shown: `(r - c) mod 8` (R48). -/
def ticksUntil (c : BitVec 3) (r : Index) : Nat := (r.val + (8 - c.toNat)) % 8

theorem ticksUntil_lt (c : BitVec 3) (r : Index) : ticksUntil c r < 8 := Nat.mod_lt _ (by decide)

/-- Of the next eight cursors, the one that is `r` is `ticksUntil c r` on. -/
theorem cursorIndex_add_eq_iff (c : BitVec 3) (r : Index) {k : Nat} (hk : k < 8) :
    cursorIndex (c + BitVec.ofNat 3 k) = r ↔ k = ticksUntil c r := by
  have hc : c.toNat < 8 := c.isLt
  have hr : r.val < 8 := r.isLt
  rw [Fin.ext_iff, cursorIndex_val, BitVec.toNat_add, BitVec.toNat_ofNat, ticksUntil]
  omega

theorem ticksUntil_eq_zero_iff (c : BitVec 3) (r : Index) : ticksUntil c r = 0 ↔ r = cursorIndex c := by
  have hc : c.toNat < 8 := c.isLt
  have hr : r.val < 8 := r.isLt
  rw [Fin.ext_iff, cursorIndex_val, ticksUntil]
  omega

/-- A tick brings the row one tick nearer; the row just shown is the last to come again. -/
theorem ticksUntil_next (c : BitVec 3) (r : Index) :
    ticksUntil (c + 1) r = if ticksUntil c r = 0 then 7 else ticksUntil c r - 1 := by
  have hc : c.toNat < 8 := c.isLt
  have hr : r.val < 8 := r.isLt
  rw [ticksUntil, ticksUntil, cursor_next_toNat]
  split <;> omega

/-- Settles O10: the `k`-th cursor from `c` is `c + k`, so each row's turn is at `ticksUntil c r` and the ninth cursor is the first again. -/
theorem cursorAdvancesModuloEight : Obligations.CursorAdvancesModuloEight := by
  refine ⟨fun s hi hp => ⟨_, exec_tick_of hi hp, cursor_next_toNat s.cur⟩, fun s r hi hp => ⟨?_, ?_⟩, ?_⟩
  · have hk := ticksUntil_lt s.cur r
    obtain ⟨row, col, hticks⟩ := ticks_of hi hp (ticksUntil s.cur r)
    refine ⟨ticksUntil s.cur r, ⟨hk, _, hticks, (cursorIndex_add_eq_iff s.cur r hk).mpr rfl⟩, ?_⟩
    rintro j ⟨hj, t, ht, hcur⟩
    obtain ⟨row', col', hticks'⟩ := ticks_of hi hp j
    cases hticks'.symm.trans ht
    exact (cursorIndex_add_eq_iff s.cur r hj).mp hcur
  · obtain ⟨row, col, hticks⟩ := ticks_of hi hp 8
    exact ⟨_, hticks, BitVec.add_zero s.cur⟩
  · intro s t h htimer htick hinit
    obtain ⟨hcur, -, -⟩ := (step_writtenBy h).scan htimer htick hinit
    exact hcur

theorem litSlots_succ_of_next {s t : State} (h : exec .tick s = .next t) (r c : Index) (n : Nat) :
    litSlots r c (n + 1) s = (if lit t r c then 1 else 0) + litSlots r c n t := by
  rw [litSlots, h]

/-- In up to eight slots an LED is lit once when its bit is set and its row's turn comes, else never (R51). -/
theorem litSlots_of {s : State} (hi : s.inited = true) (hp : pinsDistinct s.cfg) (r c : Index) {n : Nat} (hn : n ≤ 8) :
    litSlots r c n s = if ticksUntil s.cur r < n ∧ (s.fb[mirror r]).getLsbD c.val = true then 1 else 0 := by
  induction n generalizing s with
  | zero => simp [litSlots]
  | succ n ih =>
    obtain ⟨t, htick, hi', hp', hfb, hcur⟩ : ∃ t, exec .tick s = .next t ∧ t.inited = true ∧ pinsDistinct t.cfg ∧
        t.fb = s.fb ∧ t.cur = s.cur + 1 := ⟨_, exec_tick_of hi hp, hi, hp, rfl, rfl⟩
    rw [litSlots_succ_of_next htick, ih hi' hp' (Nat.le_of_succ_le hn), lit_of_exec_tick htick, hfb, hcur, ticksUntil_next]
    simp only [← ticksUntil_eq_zero_iff]
    cases (s.fb[mirror r]).getLsbD c.val with
    | false => simp
    | true =>
      by_cases hshown : ticksUntil s.cur r = 0
      · have hlast : ¬ 7 < n := by omega
        simp [hshown, hlast]
      · have hnearer : ticksUntil s.cur r - 1 < n ↔ ticksUntil s.cur r < n + 1 := by omega
        simp [hshown, hnearer]

/-- Settles O14: eight ticks leave the Frame Buffer alone, and every row's turn comes once in eight slots. -/
theorem fullScanLightsEachSetBitOnce : Obligations.FullScanLightsEachSetBitOnce := by
  intro s r c hi hp
  obtain ⟨row, col, hticks⟩ := ticks_of hi hp 8
  refine ⟨⟨_, hticks, rfl⟩, ?_⟩
  simp only [litSlots_of hi hp r c (Nat.le_refl 8), ticksUntil_lt, true_and]

end Sys2Proof.Machine
end

section
/-! PROOFS. Family 41_orientation_transform.md: the reversal and the transpose bit by bit (R53 to R57, R62, R63), and the eight byte writes of a
DISP_MATRIX, left alone and under every interleaving (R58 to R61). -/

namespace Sys2Proof.Machine

/-! The reversal (R53 to R55, R62). -/

/-- Bits 7:5 survive the 5-bit reversal under KEEP and are 0 under CLEAR (R54). -/
theorem getLsbD_rev5_high_eq_and (cfg : Config) (b : Byte) {k : Nat} (hk : 5 ≤ k) (h8 : k < 8) :
    (rev5 cfg b).getLsbD k = ((cfg.revHigh == .keep) && b.getLsbD k) := by
  rw [getLsbD_rev5_high cfg b hk h8]
  cases cfg.revHigh with
  | keep => rfl
  | clear => rfl

/-- Settles O23: the five low bits are read from the opposite end, the three high ones from their own place. -/
theorem revFiveReversesLowFiveBits : Obligations.RevFiveReversesLowFiveBits := by
  refine ⟨rfl, fun cfg b => ?_⟩
  have hlow : ∀ k, k ≤ 4 → (rev5 cfg b).getLsbD k = b.getLsbD (4 - k) := fun k hk => getLsbD_rev5_low cfg b (Nat.lt_succ_of_le hk)
  refine ⟨hlow, hlow 0 (by decide), hlow 4 (by decide), hlow 1 (by decide), hlow 3 (by decide), hlow 2 (by decide), ?_⟩
  intro k h5 h8 hbit
  rw [getLsbD_rev5_high_eq_and cfg b h5 h8, Bool.and_eq_true] at hbit
  exact hbit.2

/-- Settles O24: the row read is the mirrored one. -/
theorem revReversesRowsAndBits : Obligations.RevReversesRowsAndBits := fun cfg m i h => getElem_rev cfg m ⟨i, h⟩

/-- The 5-bit reversal undoes itself on bits 4:0 (R62). -/
theorem getLsbD_rev5_rev5_low (cfg : Config) (b : Byte) {k : Nat} (hk : k < 5) :
    (rev5 cfg (rev5 cfg b)).getLsbD k = b.getLsbD k := by
  rw [getLsbD_rev5_low cfg _ hk, getLsbD_rev5_low cfg b (by omega), Nat.sub_sub_self (Nat.le_of_lt_succ hk)]

theorem getLsbD_rev5_rev5_high (cfg : Config) (b : Byte) {k : Nat} (hk : 5 ≤ k) (h8 : k < 8) :
    (rev5 cfg (rev5 cfg b)).getLsbD k = ((cfg.revHigh == .keep) && b.getLsbD k) := by
  rw [getLsbD_rev5_high_eq_and cfg _ hk h8, getLsbD_rev5_high_eq_and cfg b hk h8, ← Bool.and_assoc, Bool.and_self]

/-- The mask of bits 4:0. -/
theorem getLsbD_and_lowFive (b : Byte) {k : Nat} (h8 : k < 8) : (b &&& 0x1F).getLsbD k = (b.getLsbD k && decide (k < 5)) := by
  have hmask : ∀ i : Index, (0x1F : Byte).getLsbD i.val = decide (i.val < 5) := by decide
  rw [BitVec.getLsbD_and, hmask ⟨k, h8⟩]

theorem rev5_rev5_of_keep {cfg : Config} (h : cfg.revHigh = .keep) (b : Byte) : rev5 cfg (rev5 cfg b) = b := by
  apply byte_ext
  intro k h8
  by_cases hk : k < 5
  · exact getLsbD_rev5_rev5_low cfg b hk
  · rw [getLsbD_rev5_rev5_high cfg b (Nat.le_of_not_lt hk) h8, h]
    rfl

theorem rev5_rev5_of_clear {cfg : Config} (h : cfg.revHigh = .clear) (b : Byte) : rev5 cfg (rev5 cfg b) = b &&& 0x1F := by
  apply byte_ext
  intro k h8
  rw [getLsbD_and_lowFive b h8]
  by_cases hk : k < 5
  · rw [getLsbD_rev5_rev5_low cfg b hk, decide_eq_true hk, Bool.and_true]
  · rw [getLsbD_rev5_rev5_high cfg b (Nat.le_of_not_lt hk) h8, h, decide_eq_false hk, Bool.and_false]
    rfl

theorem getElem_rev_rev (cfg : Config) (m : Bitmap) (i : Index) : (rev cfg (rev cfg m))[i] = rev5 cfg (rev5 cfg m[i]) := by
  simp only [getElem_rev, mirror_mirror]

theorem rev_rev_of_keep {cfg : Config} (h : cfg.revHigh = .keep) (m : Bitmap) : rev cfg (rev cfg m) = m :=
  bitmap_ext fun i => (getElem_rev_rev cfg m i).trans (rev5_rev5_of_keep h m[i])

theorem getElem_rev_rev_of_clear {cfg : Config} (h : cfg.revHigh = .clear) (m : Bitmap) (i : Index) :
    (rev cfg (rev cfg m))[i] = m[i] &&& 0x1F :=
  (getElem_rev_rev cfg m i).trans (rev5_rev5_of_clear h m[i])

/-- Settles O26: the rows come back to their places, and in each the two 5-bit reversals meet. -/
theorem reversalTwiceRestores : Obligations.ReversalTwiceRestores :=
  fun _ m => ⟨fun h => rev_rev_of_keep h m, fun h i => getElem_rev_rev_of_clear h m i⟩

/-! The transpose and its inverse (R56, R63). -/

/-- `TR(L)[7 - i][j] = L[j][i]` (R56). -/
theorem getLsbD_transpose_mirror (l : Bitmap) (j i : Index) :
    ((transpose l)[mirror i]).getLsbD j.val = (l[j]).getLsbD i.val := by
  rw [getLsbD_transpose l (mirror i) j.isLt, mirror_val, Nat.sub_sub_self (Nat.le_of_lt_succ i.isLt)]
  rfl

/-- Two bitmaps with the same bits are equal. -/
theorem bitmap_ext_bits {l m : Bitmap} (h : ∀ i k : Index, (l[i]).getLsbD k.val = (m[i]).getLsbD k.val) : l = m :=
  bitmap_ext fun i => byte_ext fun k hk => h i ⟨k, hk⟩

/-- The same, with the rows counted from the far end. -/
theorem bitmap_ext_mirror {l m : Bitmap} (h : ∀ i k : Index, (l[mirror i]).getLsbD k.val = (m[mirror i]).getLsbD k.val) : l = m :=
  bitmap_ext_bits fun i k => by simpa only [mirror_mirror] using h (mirror i) k

theorem transposeInv_transpose (l : Bitmap) : transposeInv (transpose l) = l := by
  apply bitmap_ext_bits
  intro j i
  rw [getLsbD_transposeInv _ j i.isLt]
  exact getLsbD_transpose_mirror l j i

/-- Two transposes turn the bitmap half round (R63). -/
theorem getLsbD_transpose_transpose (l : Bitmap) (m j : Index) :
    ((transpose (transpose l))[m]).getLsbD j.val = (l[mirror m]).getLsbD (7 - j.val) := by
  rw [getLsbD_transpose _ m j.isLt]
  exact getLsbD_transpose l j (mirror m).isLt

theorem transpose_four_times (l : Bitmap) : transpose (transpose (transpose (transpose l))) = l := by
  apply bitmap_ext_bits
  intro m j
  calc ((transpose (transpose (transpose (transpose l))))[m]).getLsbD j.val
      = ((transpose (transpose l))[mirror m]).getLsbD (mirror j).val := getLsbD_transpose_transpose _ m j
    _ = (l[mirror (mirror m)]).getLsbD (mirror (mirror j)).val := getLsbD_transpose_transpose l (mirror m) (mirror j)
    _ = (l[m]).getLsbD j.val := by simp only [mirror_mirror]

/-- Rows 5..7 of a bitmap become bits 7:5 of its transpose; where they are zero, clearing those bits changes nothing (R63). -/
theorem rev_rev_transpose_of_clear {cfg : Config} (h : cfg.revHigh = .clear) {l : Bitmap} (hl : ∀ i : Index, 5 ≤ i.val → l[i] = 0) :
    rev cfg (rev cfg (transpose l)) = transpose l := by
  apply bitmap_ext_bits
  intro m j
  rw [getElem_rev_rev_of_clear h, getLsbD_and_lowFive _ j.isLt]
  by_cases hlow : j.val < 5
  · rw [decide_eq_true hlow, Bool.and_true]
  · have hrow : l[j.val] = 0 := hl j (Nat.le_of_not_lt hlow)
    have hbit : ((transpose l)[m]).getLsbD j.val = false := by
      rw [getLsbD_transpose l m j.isLt, hrow]
      exact BitVec.getLsbD_zero
    rw [hbit, Bool.false_and]

/-- Settles O27: REV undoes the REV of Left, and TRinv the transpose. -/
theorem transposeHasItsInverse : Obligations.TransposeHasItsInverse := by
  intro cfg l
  refine ⟨transposeInv_transpose l, fun h => ?_, fun h hl => ?_, getLsbD_transpose_transpose l, transpose_four_times l⟩
  · rw [orient, rev_rev_of_keep h, transposeInv_transpose]
  · rw [orient, rev_rev_transpose_of_clear h hl, transposeInv_transpose]

/-! The transpose as a loop (R56). -/

/-- The loop's body: bit i of row j, if set, sets bit j of row 7 - i. -/
def transposeBit (l : Bitmap) (j : Index) (t : Bitmap) (i : Index) : Bitmap :=
  if (l[j]).getLsbD i.val then t.set (7 - i.val) (t[mirror i] ||| (1#8 <<< j.val)) else t

/-- The inner loop, over the bits of row j. -/
def transposeRow (l t : Bitmap) (j : Index) : Bitmap := (List.finRange 8).foldl (transposeBit l j) t

theorem transposeLoop_eq_foldl (l : Bitmap) :
    transposeLoop l = (List.finRange 8).foldl (transposeRow l) (Vector.replicate 8 0) := rfl

theorem getElem_set_mirror (t : Bitmap) (i a : Index) (v : Byte) :
    (t.set (7 - i.val) v)[mirror a] = if a = i then v else t[mirror a] := by
  have hmirror : 7 - i.val = 7 - a.val ↔ a = i := by rw [Fin.ext_iff]; omega
  simp only [Fin.getElem_fin, mirror_val, Vector.getElem_set, hmirror]

/-- The body sets the bit where bit i of row j lands, if that is set, and no other. -/
theorem getLsbD_transposeBit (l t : Bitmap) (j i a b : Index) :
    ((transposeBit l j t i)[mirror a]).getLsbD b.val =
      ((t[mirror a]).getLsbD b.val || (decide (b = j ∧ a = i) && (l[b]).getLsbD a.val)) := by
  have hor : (t[mirror i] ||| 1#8 <<< j.val).getLsbD b.val = if b.val = j.val then true else (t[mirror i]).getLsbD b.val :=
    getLsbD_setBit _ j.val true b.val b.isLt
  unfold transposeBit
  by_cases hland : b = j ∧ a = i
  · obtain ⟨rfl, rfl⟩ := hland
    cases hset : (l[b]).getLsbD a.val with
    | true => rw [if_pos rfl, getElem_set_mirror, if_pos rfl, hor, if_pos rfl]; simp
    | false => simp
  · rw [decide_eq_false hland, Bool.false_and, Bool.or_false]
    split
    · rw [getElem_set_mirror]
      split
      · subst a
        have hb : b.val ≠ j.val := fun h => hland ⟨Fin.ext h, rfl⟩
        rw [hor, if_neg hb]
      · rfl
    · rfl

/-- One row of the loop sets the bits where the row's set bits land. -/
theorem getLsbD_foldl_transposeBit (l t : Bitmap) (j a b : Index) (is : List Index) :
    ((is.foldl (transposeBit l j) t)[mirror a]).getLsbD b.val =
      ((t[mirror a]).getLsbD b.val || (decide (b = j ∧ a ∈ is) && (l[b]).getLsbD a.val)) := by
  induction is generalizing t with
  | nil => simp
  | cons i is ih =>
    rw [List.foldl_cons, ih, getLsbD_transposeBit]
    grind

/-- The loop over the rows `js` sets the bits where theirs land. -/
theorem getLsbD_foldl_transposeRow (l t : Bitmap) (a b : Index) (js : List Index) :
    ((js.foldl (transposeRow l) t)[mirror a]).getLsbD b.val =
      ((t[mirror a]).getLsbD b.val || (decide (b ∈ js) && (l[b]).getLsbD a.val)) := by
  induction js generalizing t with
  | nil => simp
  | cons j js ih =>
    rw [List.foldl_cons, ih, transposeRow, getLsbD_foldl_transposeBit]
    grind

/-- Settles O25: from zero bytes the loop sets exactly the bits where a set bit lands. -/
theorem transposeMatchesTheLoop : Obligations.TransposeMatchesTheLoop := by
  intro l
  apply bitmap_ext_mirror
  intro a b
  rw [transposeLoop_eq_foldl, getLsbD_foldl_transposeRow, getLsbD_transpose_mirror]
  simp

/-! Where each bit lands (R57). -/

theorem getLsbD_rev_low (cfg : Config) (m : Bitmap) (i : Index) {k : Nat} (hk : k ≤ 4) :
    ((rev cfg m)[i]).getLsbD (4 - k) = (m[mirror i]).getLsbD k := by
  rw [getElem_rev, getLsbD_rev5_low _ _ (by omega), Nat.sub_sub_self hk]

theorem getLsbD_rev_high (cfg : Config) (m : Bitmap) (i : Index) {k : Nat} (hk : 5 ≤ k) (h8 : k < 8) :
    ((rev cfg m)[i]).getLsbD k = ((cfg.revHigh == .keep) && (m[mirror i]).getLsbD k) := by
  rw [getElem_rev, getLsbD_rev5_high_eq_and _ _ hk h8]

/-- Settles O22: each orientation's bits are those of the reversal, of the transpose, or of one after the other. -/
theorem orientationBitTable : Obligations.OrientationBitTable := by
  intro cfg l
  refine ⟨rfl, ⟨rev cfg l, rfl, fun j i => ⟨fun hi => ?_, fun hi => ?_⟩⟩, ⟨transpose l, rfl, getLsbD_transpose_mirror l⟩,
    ⟨rev cfg (transpose l), rfl, fun j i => ⟨fun hj => ?_, fun hj => ?_⟩⟩, fun ori h => xf_of_gt cfg l h⟩
  · simp only [getLsbD_rev_low cfg l _ hi, mirror_mirror]
  · simp only [getLsbD_rev_high cfg l _ hi i.isLt, mirror_mirror]
  · rw [getLsbD_rev_low cfg _ i hj, getLsbD_transpose_mirror]
  · rw [getLsbD_rev_high cfg _ i hj j.isLt, getLsbD_transpose_mirror]

/-! What the display operations stage (R58, R60, R61, R65). -/

/-- Settles O18: a null bitmap stages nothing (R60). -/
theorem nullBitmapIsIgnored : Obligations.NullBitmapIsIgnored := fun _ hi => requireInited_of hi

theorem displayMatrix_of_xf_none {l : Bitmap} {s : State} (h : xf s.cfg s.ori l = none) : displayMatrix (some l) s = s := by
  rw [displayMatrix, h]

theorem displayMatrix_of_xf_some {l p : Bitmap} {s : State} (h : xf s.cfg s.ori l = some p) :
    displayMatrix (some l) s = stageWrites s (bitmapWrites p) := by
  rw [displayMatrix, h]

/-- Under an unsupported orientation SET_POINT has no target (R65, D24). -/
theorem pointTarget_of_gt (cfg : Config) {ori : Byte} (x y : Byte) (h : 3 < ori.toNat) : pointTarget cfg ori x y = none := by
  unfold pointTarget
  rw [orientationOf_of_gt h]
  split <;> rfl

/-- Settles O19: the transform and the remapper have no result, so nothing is staged. -/
theorem unsupportedOrientationDisablesDisplay : Obligations.UnsupportedOrientationDisablesDisplay := by
  intro s hi hori
  have hdisplay : ∀ l, displayMatrix (some l) s = s := fun l => displayMatrix_of_xf_none (xf_of_gt s.cfg l hori)
  refine ⟨fun l => ?_, fun x y on => ?_, fun ch hch => ?_⟩
  · rw [exec, execDispMatrix, requireInited_of hi, hdisplay]
  · rw [exec, execSetPoint, requireInited_of hi, pointTarget_of_gt s.cfg x y hori]
  · rw [exec, execDispChar_of hi hch, hdisplay]

theorem execSetPoint_onlyStages {x y : Byte} {on : Bool} {s t : State} (h : execSetPoint x y on s = .next t) : OnlyStages s t := by
  obtain ⟨-, ⟨-, rfl⟩ | ⟨idx, bit, -, rfl⟩⟩ := execSetPoint_next h
  · exact ⟨rfl, .inl rfl⟩
  · exact ⟨rfl, .inr (by simp)⟩

/-- Settles O55: the three display operations only stage byte writes, SCROLL_TEXT only sets the animator. -/
theorem displayOperationsFrame : Obligations.DisplayOperationsFrame := by
  refine fun s t => ⟨?_, fun text speed policy h => ?_⟩
  · rintro i (⟨l, rfl⟩ | ⟨ch, rfl⟩ | ⟨x, y, on, rfl⟩) h
    · obtain ⟨-, rfl⟩ := execDispMatrix_next h
      exact displayMatrix_onlyStages l s
    · obtain ⟨-, -, rfl⟩ := execDispChar_next h
      exact displayMatrix_onlyStages _ s
    · exact execSetPoint_onlyStages h
  · obtain ⟨-, ⟨-, rfl⟩ | ⟨-, -, rfl⟩ | ⟨-, -, -, rfl⟩⟩ := execScrollText_next h <;> rfl

/-! Byte writes under way, with the other agents between them (R28, R29, R59). -/

theorem drop_bitmapWrites (p : Bitmap) {n : Nat} (h : n < 8) :
    (bitmapWrites p).drop n = (⟨n, h⟩, p[n]) :: (bitmapWrites p).drop (n + 1) := by
  rw [List.drop_eq_getElem_cons (by simpa using h), getElem_bitmapWrites p n h]

/-- A step with a byte write to come is another agent's, which touches neither the Frame Buffer nor the writes, or lands that write. -/
theorem step_of_pending {s t : State} {i : Index} {v : Byte} {ws : List FbWrite} (hp : s.pending = (i, v) :: ws) (h : step s = .next t) :
    ((activity s = .timerTick ∨ activity s = .cancellerCall) ∧ t.pending = s.pending ∧ t.fb = s.fb) ∨
      (activity s = .byteWrite i v ∧ t = writeFb (stageWrites (passTurn s) ws) i v) := by
  obtain ⟨hact, h⟩ | ⟨hact, rfl⟩ | ⟨i, v, ws, hact, hp', rfl⟩ | ⟨a, -, hp', -⟩ | ⟨-, ⟨hp', -⟩, -⟩ | ⟨_, _, -, ⟨hp', -⟩, -⟩ := step_cases h
  · obtain ⟨-, -, rfl⟩ := refreshTick_next h
    exact .inl ⟨.inl hact, by simp⟩
  · exact .inl ⟨.inr hact, by simp⟩
  · cases hp.symm.trans hp'
    exact .inr ⟨hact, rfl⟩
  all_goals exact absurd (hp.symm.trans hp') (List.cons_ne_nil _ _)

/-- When byte `n` lands, one more byte is new (R59). -/
theorem Torn.land {old p : Bitmap} {n : Nat} {s : State} (hs : Torn old p n s) (h : n < 8) :
    Torn old p (n + 1) (writeFb (stageWrites (passTurn s) ((bitmapWrites p).drop (n + 1))) ⟨n, h⟩ p[n]) := by
  obtain ⟨-, hfb⟩ := hs
  refine ⟨rfl, fun i => ?_⟩
  have hi := hfb i
  simp only [Fin.getElem_fin] at hi
  simp only [writeFb_fb, stageWrites_fb, passTurn_fb, Fin.getElem_fin, Vector.getElem_set, hi]
  grind

/-- Settles O20: the oldest write to come is that of byte `n`. -/
theorem tornBufferStep : Obligations.TornBufferStep := by
  intro old p n h s t hs hstep
  have hp : s.pending = (⟨n, h⟩, p[n]) :: (bitmapWrites p).drop (n + 1) := hs.1.trans (drop_bitmapWrites p h)
  obtain ⟨hact, hpending, hfb⟩ | ⟨hact, rfl⟩ := step_of_pending hp hstep
  · exact .inl ⟨hact, by simpa only [Torn, hpending, hfb] using hs⟩
  · refine .inr ⟨hact, hs.land h, ?_⟩
    rw [hp]
    rfl

/-- From a buffer with `n` new bytes on, some first bytes are new until all eight are (R59). -/
theorem torn_run {old p : Bitmap} {n k : Nat} {s u : State} (hn : n ≤ 8) (hs : Torn old p n s) (hrun : run k s = .next u) :
    (∃ m, m ≤ 8 ∧ Torn old p m u) ∨ ∃ j v, j < k ∧ run j s = .next v ∧ Torn old p 8 v := by
  induction k generalizing s n with
  | zero =>
    cases hrun
    exact .inl ⟨n, hn, hs⟩
  | succ k ih =>
    by_cases hall : n = 8
    · subst hall
      exact .inr ⟨0, s, Nat.zero_lt_succ k, rfl, hs⟩
    have hlt : n < 8 := by omega
    obtain ⟨t, hstep, hrun⟩ := run_succ_next hrun
    obtain ⟨m, hm, ht⟩ : ∃ m, m ≤ 8 ∧ Torn old p m t := by
      obtain ⟨-, ht⟩ | ⟨-, ht, -⟩ := tornBufferStep old p n hlt s t hs hstep
      · exact ⟨n, hn, ht⟩
      · exact ⟨n + 1, hlt, ht⟩
    refine (ih hm ht hrun).imp_right ?_
    rintro ⟨j, v, hj, hv, hdone⟩
    exact ⟨j + 1, v, Nat.succ_lt_succ hj, (run_succ_of_next hstep).trans hv, hdone⟩

/-- Settles O21: DISP_MATRIX begins with no byte new. -/
theorem bufferIsOldOrNewThroughout : Obligations.BufferIsOldOrNewThroughout := by
  intro s t u l p k hxf hexec hrun
  obtain ⟨-, rfl⟩ := execDispMatrix_next hexec
  rw [displayMatrix_of_xf_some hxf] at hrun ⊢
  exact torn_run (Nat.zero_le 8) ⟨rfl, fun _ => rfl⟩ hrun

/-! Byte writes left alone (R58, R59). -/

/-- The Frame Buffer when the byte writes `ws` have landed in order. -/
def landWrites (fb : Bitmap) (ws : List FbWrite) : Bitmap := ws.foldl (fun m w => m.set w.1.val w.2) fb

theorem landWrites_cons (fb : Bitmap) (i : Index) (v : Byte) (ws : List FbWrite) :
    landWrites fb ((i, v) :: ws) = landWrites (fb.set i.val v) ws := rfl

theorem getElem_landWrites_map (fb p : Bitmap) (is : List Index) (j : Index) :
    (landWrites fb (is.map fun i => (i, p[i])))[j] = if j ∈ is then p[j] else fb[j] := by
  induction is generalizing fb with
  | nil => rfl
  | cons i is ih =>
    rw [List.map_cons, landWrites_cons, ih]
    simp only [Fin.getElem_fin, Vector.getElem_set, List.mem_cons]
    grind

/-- The eight writes of a bitmap replace the whole Frame Buffer. -/
theorem landWrites_bitmapWrites (fb p : Bitmap) : landWrites fb (bitmapWrites p) = p :=
  bitmap_ext fun j => (getElem_landWrites_map fb p (List.finRange 8) j).trans (if_pos (List.mem_finRange j))

/-- The countdowns do not depend on the Frame Buffer. -/
theorem afterTurns_withFb (k : Nat) (s : State) (fb : Bitmap) :
    afterTurns k { s with fb := fb } = { afterTurns k s with fb := fb } := by
  induction k generalizing s with
  | zero => rfl
  | succ k ih => exact ih (passTurn s)

/-- Left alone the foreground lands its writes one a turn, and nothing else changes but the countdowns (R59, R71). -/
theorem run_stageWrites (s : State) (ws : List FbWrite) (hq : Quiet ws.length s) :
    run ws.length (stageWrites s ws) = .next { afterTurns ws.length s with fb := landWrites s.fb ws, pending := [] } := by
  induction ws generalizing s with
  | nil => rfl
  | cons w ws ih =>
    obtain ⟨i, v⟩ := w
    have hturn : agentTurn (stageWrites s ((i, v) :: ws)) = .foreground := agentTurn_of_quiet (k := ws.length) hq
    have hstep : step (stageWrites s ((i, v) :: ws)) = .next (stageWrites (writeFb (passTurn s) i v) ws) := by
      rw [step_foreground hturn]
      exact foregroundTurn_write (s := passTurn (stageWrites s ((i, v) :: ws))) rfl
    have hrun := ih (writeFb (passTurn s) i v) (quiet_passTurn hq)
    rw [writeFb, afterTurns_withFb] at hrun
    exact (run_succ_of_next hstep).trans hrun

/-- Settles O17: under a legal orientation the eight bytes of the transform are staged, and left alone they all land. -/
theorem dispMatrixStoresTransformedBitmap : Obligations.DispMatrixStoresTransformedBitmap := by
  intro s l hi hori hq
  obtain ⟨o, ho⟩ := orientationOf_of_le hori
  have hxf : xf s.cfg s.ori l = some (orient s.cfg o l) := by rw [xf, ho]; rfl
  refine ⟨stageWrites s (bitmapWrites (orient s.cfg o l)), orient s.cfg o l, ?_, hxf, ?_⟩
  · rw [exec, execDispMatrix, requireInited_of hi, displayMatrix_of_xf_some hxf]
  · have hrun := run_stageWrites s (bitmapWrites (orient s.cfg o l)) (by rwa [length_bitmapWrites])
    rwa [length_bitmapWrites, landWrites_bitmapWrites] at hrun

end Sys2Proof.Machine
end

section
/-! PROOFS. Family 42_set_point.md: which bit a pixel is (R65 to R69), the one byte write that sets it (R70, R71), and its agreement with
DISP_MATRIX (R72). -/

namespace Sys2Proof.Machine

/-! The target of a pixel (R65 to R69). -/

/-- Out of range there is no target, whatever the orientation (R68). -/
theorem pointTarget_of_outOfRange (cfg : Config) (ori : Byte) {x y : Byte} (h : 4 < x.toNat ∨ 7 < y.toNat) :
    pointTarget cfg ori x y = none := dif_neg (by omega)

/-- Under Left and Right there is no target (R69). -/
theorem pointTarget_sideways (cfg : Config) {ori : Byte} (x y : Byte) (h : ori = 2 ∨ ori = 3) : pointTarget cfg ori x y = none := by
  unfold pointTarget
  obtain rfl | rfl := h
  all_goals split <;> rfl

/-- Under Normal the pixel is bit `4 - x` of byte `y` (R66). -/
theorem pointTarget_normal (cfg : Config) {ori x y : Byte} (hori : ori = 0) (hx : x.toNat ≤ 4) (hy : y.toNat ≤ 7) :
    pointTarget cfg ori x y = some (⟨y.toNat, Nat.lt_succ_of_le hy⟩, 4 - x.toNat) := by
  subst hori
  exact dif_pos ⟨hx, hy⟩

/-- Under Down with MIRROR the pixel is bit `x` of byte `7 - y` (R67, D8). -/
theorem pointTarget_down_mirror {cfg : Config} {ori x y : Byte} (hori : ori = 1) (hcfg : cfg.pointDown = .mirror)
    (hx : x.toNat ≤ 4) (hy : y.toNat ≤ 7) :
    pointTarget cfg ori x y = some (mirror ⟨y.toNat, Nat.lt_succ_of_le hy⟩, x.toNat) := by
  subst hori
  rw [pointTarget, dif_pos ⟨hx, hy⟩, hcfg]
  rfl

/-- Under Down with NOOP there is no target (R67, D8). -/
theorem pointTarget_down_noop {cfg : Config} {ori : Byte} (x y : Byte) (hori : ori = 1) (hcfg : cfg.pointDown = .noop) :
    pointTarget cfg ori x y = none := by
  subst hori
  rw [pointTarget, hcfg]
  split <;> rfl

/-! What SET_POINT does with its target (R65, R70, R71). -/

theorem exec_setPoint_of_none {s : State} {x y : Byte} (on : Bool) (hi : s.inited = true) (ht : pointTarget s.cfg s.ori x y = none) :
    exec (.setPoint x y on) s = .next s := by
  rw [exec, execSetPoint, requireInited_of hi, ht]

theorem exec_setPoint_of_some {s : State} {x y : Byte} {idx : Index} {bit : Nat} (on : Bool) (hi : s.inited = true)
    (ht : pointTarget s.cfg s.ori x y = some (idx, bit)) :
    exec (.setPoint x y on) s = .next (stageWrites s [(idx, setBit (readFb s idx) bit on)]) := by
  rw [exec, execSetPoint, requireInited_of hi, ht]

/-- Settles O30: in none of the four cases is there a target. -/
theorem setPointNoOps : Obligations.SetPointNoOps := by
  intro s x y on hi h
  apply exec_setPoint_of_none on hi
  obtain hx | hy | hori := h
  · exact pointTarget_of_outOfRange s.cfg s.ori (.inl hx)
  · exact pointTarget_of_outOfRange s.cfg s.ori (.inr hy)
  · exact pointTarget_sideways s.cfg x y hori

/-- Settles O31: a target is among bits 4:0, and the byte staged differs from the one held in that bit only. -/
theorem setPointReachesOnlyLowFiveBits : Obligations.SetPointReachesOnlyLowFiveBits := by
  refine fun s x y on hi => ⟨exec_setPoint_of_none on hi, fun idx bit ht => ⟨pointTarget_bit ht, ?_⟩⟩
  exact ⟨_, exec_setPoint_of_some on hi ht, getLsbD_setBit s.fb[idx] bit on⟩

/-! One bit of a bitmap. -/

/-- The bitmap `m` with bit `bit` of row `i` set to `on`: the Frame Buffer after SET_POINT (R71), and the logical bitmap of R72. -/
def putBit (m : Bitmap) (i : Index) (bit : Nat) (on : Bool) : Bitmap := m.set i.val (setBit m[i] bit on)

theorem withPixel_eq_putBit (l : Bitmap) (x : Nat) (y : Index) (on : Bool) : withPixel l x y on = putBit l y (4 - x) on := rfl

/-- That bit is written and no other (R70). -/
theorem getLsbD_putBit (m : Bitmap) (i : Index) (bit : Nat) (on : Bool) (j k : Index) :
    ((putBit m i bit on)[j]).getLsbD k.val = if j.val = i.val ∧ k.val = bit then on else (m[j]).getLsbD k.val := by
  by_cases hj : j = i
  · subst hj
    simp only [putBit, Fin.getElem_fin, Vector.getElem_set_self, getLsbD_setBit _ _ _ _ k.isLt, true_and]
  · have hne : i.val ≠ j.val := fun e => hj (Fin.ext e.symm)
    simp only [putBit, Fin.getElem_fin, Vector.getElem_set_ne _ _ hne, hne.symm, false_and, ↓reduceIte]

/-- Of two values written to a bit the second stays. -/
theorem putBit_putBit (m : Bitmap) (i : Index) (bit : Nat) (a b : Bool) : putBit (putBit m i bit a) i bit b = putBit m i bit b := by
  refine bitmap_ext_bits fun j k => ?_
  simp only [getLsbD_putBit]
  split <;> rfl

/-- The reversal takes a write of one of bits 4:0 to a write of the mirrored bit (R53, R55). -/
theorem rev_putBit (cfg : Config) (m : Bitmap) (i : Index) {bit : Nat} (hbit : bit ≤ 4) (on : Bool) :
    rev cfg (putBit m i bit on) = putBit (rev cfg m) (mirror i) (4 - bit) on := by
  refine bitmap_ext_mirror fun j k => ?_
  have hj : (mirror j).val = (mirror i).val ↔ j.val = i.val := by simp only [mirror_val]; omega
  simp only [getLsbD_putBit, getElem_rev, mirror_mirror]
  by_cases hk : k.val < 5
  · have hbits : 4 - k.val = bit ↔ k.val = 4 - bit := by omega
    have hput := getLsbD_putBit m i bit on j ⟨4 - k.val, by omega⟩
    simp only [hbits] at hput
    simp only [getLsbD_rev5_low _ _ hk, hj, hput]
  · have hle : 5 ≤ k.val := Nat.le_of_not_lt hk
    have hne : k.val ≠ bit := by omega
    have hne' : k.val ≠ 4 - bit := by omega
    simp only [getLsbD_rev5_high_eq_and _ _ hle k.isLt, getLsbD_putBit, hne, hne', and_false, ↓reduceIte]

/-! The byte write, left alone (R70, R71). -/

/-- SET_POINT completes, and one foreground turn later the bit its target names is written. -/
theorem exec_setPoint_lands {s : State} {x y : Byte} {idx : Index} {bit : Nat} (on : Bool) (hi : s.inited = true) (hq : Quiet 1 s)
    (ht : pointTarget s.cfg s.ori x y = some (idx, bit)) :
    ∃ t, exec (.setPoint x y on) s = .next t ∧
      run 1 t = .next { afterTurns 1 s with fb := putBit s.fb idx bit on, pending := [] } :=
  ⟨_, exec_setPoint_of_some on hi ht, run_stageWrites s [(idx, setBit (readFb s idx) bit on)] hq⟩

/-- The same, bit by bit. -/
theorem exec_setPoint_writes_one_bit {s : State} {x y : Byte} {idx : Index} {bit : Nat} (on : Bool) (hi : s.inited = true)
    (hq : Quiet 1 s) (ht : pointTarget s.cfg s.ori x y = some (idx, bit)) :
    ∃ t u, exec (.setPoint x y on) s = .next t ∧ run 1 t = .next u ∧
      (∀ i k : Index, (u.fb[i]).getLsbD k.val = if i.val = idx.val ∧ k.val = bit then on else (s.fb[i]).getLsbD k.val) ∧
      u = { afterTurns 1 s with fb := u.fb, pending := [] } := by
  obtain ⟨t, hexec, hrun⟩ := exec_setPoint_lands on hi hq ht
  exact ⟨t, _, hexec, hrun, getLsbD_putBit s.fb idx bit on, rfl⟩

/-- Settles O28: the target under Normal. -/
theorem setPointNormalWritesOneBit : Obligations.SetPointNormalWritesOneBit :=
  fun s _ _ on hi hori hx hy hq => exec_setPoint_writes_one_bit on hi hq (pointTarget_normal s.cfg hori hx hy)

/-- Settles O29: the target under Down, by `SETPOINT_DOWN`. -/
theorem setPointDownMirrorsOrDoesNothing : Obligations.SetPointDownMirrorsOrDoesNothing := by
  refine fun s x y on hi hori hx hy => ⟨fun hcfg hq => ?_, fun hcfg => ?_⟩
  · exact exec_setPoint_writes_one_bit on hi hq (pointTarget_down_mirror hori hcfg hx hy)
  · exact exec_setPoint_of_none on hi (pointTarget_down_noop x y hori hcfg)

/-! Agreement with DISP_MATRIX (R72). -/

/-- Where a pixel has a target, DISP_MATRIX of the bitmap with that pixel gives the old Frame Buffer with the target's bit written. -/
theorem xf_withPixel {cfg : Config} {ori x y : Byte} {y' : Index} {l fb : Bitmap} (on : Bool)
    (hmode : ori = 0 ∨ (ori = 1 ∧ cfg.pointDown = .mirror)) (hx : x.toNat ≤ 4) (hy : y.toNat = y'.val) (hfb : xf cfg ori l = some fb) :
    ∃ idx bit, pointTarget cfg ori x y = some (idx, bit) ∧ xf cfg ori (withPixel l x.toNat y' on) = some (putBit fb idx bit on) := by
  have hle : y.toNat ≤ 7 := by omega
  obtain rfl : ⟨y.toNat, Nat.lt_succ_of_le hle⟩ = y' := Fin.ext hy
  obtain rfl | ⟨rfl, hcfg⟩ := hmode
  · cases hfb
    exact ⟨_, _, pointTarget_normal cfg rfl hx hle, rfl⟩
  · cases hfb
    refine ⟨_, _, pointTarget_down_mirror rfl hcfg hx hle, congrArg some ?_⟩
    have hrev := rev_putBit cfg l ⟨y.toNat, Nat.lt_succ_of_le hle⟩ (Nat.sub_le 4 x.toNat) on
    rwa [Nat.sub_sub_self hx] at hrev

/-- Settles O32: the bit SET_POINT writes is the one the transform moves the pixel to. -/
theorem setPointAgreesWithDispMatrix : Obligations.SetPointAgreesWithDispMatrix := by
  intro s l x y y' on hi hmode hx hy hq hfb
  obtain ⟨idx, bit, ht, hxf⟩ := xf_withPixel on hmode hx hy hfb
  obtain ⟨t, hexec, hrun⟩ := exec_setPoint_lands on hi hq ht
  exact ⟨t, _, hexec, hxf, hrun⟩

/-! SET_POINT from its command bytes (R36). -/

/-- A free foreground takes two turns for a SET_POINT command, one to compute and one to write, and is free again. -/
theorem run_two_of_setPoint {s : State} {x y : Byte} {on : Bool} {idx : Index} {bit : Nat} {rest : List Byte} (hi : s.inited = true)
    (hfree : ForegroundFree s) (hq : Quiet 2 s) (ht : pointTarget s.cfg s.ori x y = some (idx, bit))
    (hcmd : s.commands = encode (.setPoint x y on) ++ rest) :
    run 2 s = .next { afterTurns 2 s with fb := putBit s.fb idx bit on, commands := rest } := by
  have hdecode : decode s.commands = .ok (.setPoint x y on, rest) := by
    rw [hcmd]
    exact decode_encode_append rfl rest
  have hstep := stepRunsTheDecodedCommand s _ _ (agentTurn_of_quiet hq) hfree hdecode
  obtain ⟨t, hexec, hrun⟩ := exec_setPoint_lands (s := { passTurn s with commands := rest }) on hi (quiet_passTurn hq) ht
  rw [run_succ_of_next (hstep.trans hexec), hrun, ← hfree.1]
  rfl

/-- The first turns of a quiet stretch are quiet. -/
theorem quiet_of_le {j k : Nat} {s : State} (hjk : j ≤ k) (h : Quiet k s) : Quiet j s := by
  obtain ⟨htimer, hcancels⟩ := h
  exact ⟨fun hs => hjk.trans (htimer hs), fun g hg => hjk.trans (hcancels g hg)⟩

/-- Two SET_POINT commands for one pixel take four turns and leave the bit at the second's value. -/
theorem run_four_of_setPoint_twice {s : State} {x y : Byte} {a b : Bool} {idx : Index} {bit : Nat} {rest : List Byte}
    (hi : s.inited = true) (hfree : ForegroundFree s) (hq : Quiet 4 s) (ht : pointTarget s.cfg s.ori x y = some (idx, bit))
    (hcmd : s.commands = encode (.setPoint x y a) ++ encode (.setPoint x y b) ++ rest) :
    run 4 s = .next { afterTurns 4 s with fb := putBit s.fb idx bit b, commands := rest } := by
  have hfirst := run_two_of_setPoint hi hfree (quiet_of_le (by decide) hq) ht (hcmd.trans (List.append_assoc _ _ _))
  have hsecond := run_two_of_setPoint
    (s := { afterTurns 2 s with fb := putBit s.fb idx bit a, commands := encode (.setPoint x y b) ++ rest })
    hi hfree (quiet_passTurn (quiet_passTurn hq)) ht rfl
  rw [putBit_putBit] at hsecond
  exact (run_add hfirst).trans hsecond

/-- Settles O33: on, then off, under Normal. -/
theorem pointOnThenOffClearsOnlyThatBit : Obligations.PointOnThenOffClearsOnlyThatBit := by
  intro s x y rest hi hori hx hy hfree hq hcmd
  have hrun := run_four_of_setPoint_twice hi hfree hq (pointTarget_normal s.cfg hori hx hy) hcmd
  exact ⟨_, hrun, rfl, getLsbD_putBit s.fb _ _ false⟩

end Sys2Proof.Machine
end

section
/-! PROOFS. Family 43_control_ops.md: what INIT sets and what a second INIT keeps (R73, R75), nothing lit until the first tick (R18, R73), the
refusals before INIT (R78), and SET_ORIENTATION (R76, R77). -/

namespace Sys2Proof.Machine

/-! The timer INIT schedules (R73, R74). -/

/-- Scheduling writes the timer and its countdown only. -/
theorem scheduleTimer_eq (s : State) :
    scheduleTimer s = { s with
      timer := (scheduleTimer s).timer, untilTick := (scheduleTimer s).untilTick, tickGaps := (scheduleTimer s).tickGaps,
      expiries := (scheduleTimer s).expiries } := by
  unfold scheduleTimer
  split
  · unfold drawGap
    split <;> rfl
  · rfl
  · rfl

/-- Under EXTERNAL there is nothing to schedule, and a running timer keeps its countdown (R75). -/
theorem scheduleTimer_of_external_or_running {s : State} (h : s.cfg.tmode = .external ∨ s.timer.isSome = true) :
    scheduleTimer s = s := by
  unfold scheduleTimer
  obtain hext | hrun := h
  · rw [hext]
  · obtain ⟨period, hperiod⟩ := Option.isSome_iff_exists.mp hrun
    rw [hperiod]
    cases s.cfg.tmode <;> rfl

/-- After scheduling the mode is EXTERNAL or the timer runs (R74). -/
theorem external_or_running_scheduleTimer (s : State) :
    (scheduleTimer s).cfg.tmode = .external ∨ (scheduleTimer s).timer.isSome = true := by
  rw [scheduleTimer_cfg, scheduleTimer_timer]
  cases s.cfg.tmode with
  | external => exact .inl rfl
  | internal => cases s.timer <;> exact .inr rfl

/-- The column byte INIT writes has every line high (R73). -/
theorem getLsbD_allHigh (c : Index) : (0xFF : Byte).getLsbD c.val = true := by decide +revert

/-- Settles O2: INIT's next state is known, and scheduling writes only the timer and its countdown. -/
theorem initSetsEveryRegister : Obligations.InitSetsEveryRegister := by
  intro s hp
  refine ⟨_, execInit_of hp, scheduleTimer_cur _, scheduleTimer_fb _, scheduleTimer_ori _, scheduleTimer_inited _, fun r => ?_, fun c => ?_,
    scheduleTimer_cancel _, scheduleTimer_pinMode _, ?_, fun h => ?_, scheduleTimer_cfg _, scheduleTimer_cancels _, scheduleTimer_commands _,
    scheduleTimer_pending _, scheduleTimer_anim _⟩
  · rw [scheduleTimer_row, getLsbD_rowsInactive s.cfg r.val r.isLt]
  · rw [scheduleTimer_col]
    exact getLsbD_allHigh c
  · rw [scheduleTimer_timer]
    cases s.cfg.tmode with
    | external => rfl
    | internal => cases s.timer <;> rfl
  · rw [scheduleTimer_of_external_or_running]
    · exact ⟨rfl, rfl, rfl⟩
    · exact h

/-- Settles O4: the registers hold what INIT writes, and a timer that is to run is running. -/
theorem secondInitChangesNothing : Obligations.SecondInitChangesNothing := by
  intro s t h
  obtain ⟨hp, ht⟩ := execInit_next h
  have hrunning : t.cfg.tmode = .external ∨ t.timer.isSome = true := by
    rw [ht]
    exact external_or_running_scheduleTimer _
  have hcfg : t.cfg = s.cfg := by rw [ht, scheduleTimer_cfg]
  have hsame : { t with
      fb := t.cfg.fbReset, cur := 0, ori := t.cfg.oriReset, inited := true, row := rowsInactive t.cfg, col := 0xFF,
      cancel := false, pinMode := .output } = t := by
    rw [hcfg, ht, scheduleTimer_eq]
  rw [← hcfg] at hp
  rw [exec, execInit_of hp, hsame, scheduleTimer_of_external_or_running hrunning]

/-! Nothing is lit until the first tick (R18, R73). -/

theorem lit_of_row_inactive {s : State} {r : Index} (h : rowIsActive s r = false) (c : Index) : lit s r c = false := by
  rw [lit, h, Bool.false_and]

theorem rowIsActive_of_exec_init {s t : State} (h : exec .init s = .next t) (r : Index) : rowIsActive t r = false := by
  obtain ⟨-, rfl⟩ := execInit_next h
  rw [rowIsActive, scheduleTimer_row, scheduleTimer_cfg, getLsbD_rowsInactive s.cfg r.val r.isLt]
  cases s.cfg.rowActive <;> rfl

/-- A step whose activity is a command is that command, run after the turn has passed (R30, R36). -/
theorem exec_of_activity_command {s t : State} {i : Instr} (hact : activity s = .command i) (h : step s = .next t) :
    ∃ rest, exec i { passTurn s with commands := rest } = .next t := by
  obtain ⟨h', -⟩ | ⟨h', -⟩ | ⟨_, _, _, h', -⟩ | ⟨_, h', -⟩ | ⟨h', -⟩ | ⟨j, rest, h', -, -, hexec⟩ := step_cases h <;>
    cases hact.symm.trans h'
  exact ⟨rest, hexec⟩

/-- Only a tick activates a row line: INIT turns them all off, and every other step leaves ROW as it was (R16, R18, R73). -/
theorem step_keeps_rows_inactive {s t : State} (hs : ∀ r : Index, rowIsActive s r = false) (h : step s = .next t)
    (htimer : activity s ≠ .timerTick) (htick : activity s ≠ .command .tick) (r : Index) : rowIsActive t r = false := by
  by_cases hinit : activity s = .command .init
  · obtain ⟨rest, hexec⟩ := exec_of_activity_command hinit h
    exact rowIsActive_of_exec_init hexec r
  · have hw := step_writtenBy h
    obtain ⟨-, hrow, -⟩ := hw.scan htimer htick hinit
    rw [rowIsActive, hrow, hw.cfg]
    exact hs r

/-- Settles O3: no row line is active after INIT, and no step but a tick activates one. -/
theorem initLeavesNothingLit : Obligations.InitLeavesNothingLit := by
  refine ⟨fun s t r c h => ?_, fun s t hs h htimer htick r c => ?_⟩
  · have hrow := rowIsActive_of_exec_init h r
    exact ⟨hrow, lit_of_row_inactive hrow c⟩
  · have hrow := step_keeps_rows_inactive hs h htimer htick r
    exact ⟨hrow, lit_of_row_inactive hrow c⟩

/-! The INITED check (R78), and SET_ORIENTATION (R76, R77). -/

/-- Settles O6: each of the other six operations begins with the INITED check. -/
theorem beforeInitOperationsAreRefused : Obligations.BeforeInitOperationsAreRefused := by
  intro s i hi hinit hcancel
  cases i with
  | init => exact absurd rfl hinit
  | cancel => exact absurd rfl hcancel
  | setOrientation _ => exact requireInited_of_not hi
  | dispChar _ => exact requireInited_of_not hi
  | dispMatrix _ => exact requireInited_of_not hi
  | setPoint _ _ _ => exact requireInited_of_not hi
  | scrollText _ _ _ => exact requireInited_of_not hi
  | tick => exact requireInited_of_not hi

/-- Settles O16: once INITED, what is left of SET_ORIENTATION is the write of ORI. -/
theorem setOrientationStoresAnyValue : Obligations.SetOrientationStoresAnyValue := fun _ _ hi => requireInited_of hi

end Sys2Proof.Machine
end

section
/-! PROOFS. Family 44_host_software.md: the Glyph Compositor and DISP_CHAR (R79 to R83), the Scroll Animator's buffers, sub-frames and passes
(R84 to R93), its cancellation (R91, R94) and the texts SCROLL_TEXT does not animate (R81, R85, R95). -/

namespace Sys2Proof.Machine

/-! The codes of the font (R79). -/

theorem charSupported_iff {cfg : Config} {ch : Byte} :
    charSupported cfg ch = true ↔ 32 ≤ ch.toNat ∧ ch.toNat ≤ cfg.fontLast := by
  rw [charSupported, Bool.and_eq_true, decide_eq_true_iff, decide_eq_true_iff, Config.fontFirst]

theorem charSupported_eq_false_iff {cfg : Config} {ch : Byte} :
    charSupported cfg ch = false ↔ ch.toNat < 32 ∨ cfg.fontLast < ch.toNat := by
  rw [← Bool.not_eq_true, charSupported_iff]
  omega

/-! The Glyph Compositor and DISP_CHAR (R80 to R83). -/

/-- Settles O35: the compositor's rows, with the table offset of a glyph row written out. -/
theorem composeShiftsSevenRowsAndBlanksTheEighth : Obligations.ComposeShiftsSevenRowsAndBlanksTheEighth :=
  fun cfg ch _ _ => ⟨getElem_compose_lt cfg ch, getElem_compose_last cfg ch⟩

/-- A font row has bits 4:0 only (R79), so shifted left by one it has bits 5:1 only. -/
theorem glyphRow_shifted_bit {cfg : Config} {ch : Byte} {row k : Nat} (h : (glyphRow cfg ch row <<< 1).getLsbD k = true) :
    1 ≤ k ∧ k ≤ 5 := by
  simp only [BitVec.getLsbD_shiftLeft, Bool.and_eq_true, Bool.not_eq_true', decide_eq_true_eq, decide_eq_false_iff_not] at h
  obtain ⟨⟨-, hk⟩, hbit⟩ := h
  refine ⟨by omega, ?_⟩
  by_contra hgt
  rw [glyphRow, getLsbD_fontByte cfg _ (show 5 ≤ k - 1 by omega)] at hbit
  cases hbit

/-- Settles O36: row 7 is blank, and the other rows are font rows shifted left by one. -/
theorem composedGlyphUsesBitsOneToFive : Obligations.ComposedGlyphUsesBitsOneToFive := by
  intro cfg ch r k hbit
  by_cases hr : r.val < 7
  · rw [getElem_compose_lt cfg ch r hr] at hbit
    exact ⟨hr, glyphRow_shifted_bit hbit⟩
  · obtain rfl : r = 7 := Fin.ext (show r.val = 7 by omega)
    rw [getElem_compose_last] at hbit
    simp at hbit

/-- For a supported code DISP_CHAR is DISP_MATRIX of the composed glyph (R83). -/
theorem exec_dispChar_eq_dispMatrix {s : State} {ch : Byte} (hi : s.inited = true) (hc : charSupported s.cfg ch = true) :
    exec (.dispChar ch) s = exec (.dispMatrix (some (compose s.cfg ch))) s :=
  (execDispChar_of hi hc).trans (requireInited_of hi).symm

/-- Settles O34: what DISP_MATRIX of the composed glyph stores. -/
theorem dispCharStoresComposedGlyph : Obligations.DispCharStoresComposedGlyph := by
  intro s ch hi hori hfirst hlast hq
  rw [exec_dispChar_eq_dispMatrix hi (charSupported_iff.mpr ⟨hfirst, hlast⟩)]
  exact dispMatrixStoresTransformedBitmap s (compose s.cfg ch) hi hori hq

/-! SCROLL_TEXT, by what its checks find (R81, R84, R85, R95). -/

/-- Settles O39: the length is the first thing looked at after INITED. -/
theorem oversizedTextReturnsAtOnce : Obligations.OversizedTextReturnsAtOnce :=
  fun _ _ _ _ hi hlen => (requireInited_of hi).trans (if_pos hlen)

/-- Settles O40: the empty text passes the length check and the font check. -/
theorem emptyTextReturnsOrIsRefused : Obligations.EmptyTextReturnsOrIsRefused :=
  fun _ _ hi => ⟨requireInited_of hi, requireInited_of hi⟩

/-- A text not too long with a code outside the font is refused, for the first such code (R81, log 11). -/
theorem exec_scrollText_of_find {s : State} {text : List Byte} {ch : Byte} (speed : BitVec 16) (policy : Policy) (hi : s.inited = true)
    (hlen : text.length ≤ Config.maxScrollLen) (hfind : text.find? (fun ch => !charSupported s.cfg ch) = some ch) :
    exec (.scrollText text speed policy) s = .refused (.charOutsideFont ch) := by
  refine (requireInited_of hi).trans ?_
  rw [if_neg (Nat.not_lt.mpr hlen), hfind]

/-- A non-empty text of at most 20 supported codes starts the animator (R84). -/
theorem exec_scrollText_of_supported {s : State} {text : List Byte} (speed : BitVec 16) (policy : Policy) (hi : s.inited = true)
    (hne : text ≠ []) (hlen : text.length ≤ Config.maxScrollLen) (hsup : ∀ ch ∈ text, charSupported s.cfg ch = true) :
    exec (.scrollText text speed policy) s = .next { s with anim := some (startAnimation s.cfg text speed policy) } := by
  have hfind : text.find? (fun ch => !charSupported s.cfg ch) = none := by simpa using hsup
  refine (requireInited_of hi).trans ?_
  rw [if_neg (Nat.not_lt.mpr hlen), hfind]
  cases text with
  | nil => exact absurd rfl hne
  | cons ch text => rfl

/-- Settles O37: the compositor looks at its destination first, SCROLL_TEXT finds the first code outside the font. -/
theorem compositorIgnoresNullAndCodesOutsideTheFontAreRefused :
    Obligations.CompositorIgnoresNullAndCodesOutsideTheFontAreRefused := by
  refine ⟨composeGlyph_null, fun cfg ch buffer => ⟨fun h => ?_, fun h => ?_⟩, fun s hi => ⟨fun ch h => ?_, ?_⟩⟩
  · exact composeGlyph_of_supported buffer (charSupported_iff.mpr h)
  · exact composeGlyph_of_not_supported buffer (charSupported_eq_false_iff.mpr h)
  · exact execDispChar_of_not_supported hi (charSupported_eq_false_iff.mpr h)
  · rintro text speed policy hlen ⟨ch, hmem, hout⟩
    cases hfind : text.find? (fun ch => !charSupported s.cfg ch) with
    | none =>
      have hsup := List.find?_eq_none.mp hfind ch hmem
      simp [charSupported_eq_false_iff.mpr hout] at hsup
    | some first =>
      have hfirst := List.find?_some hfind
      rw [Bool.not_eq_true'] at hfirst
      exact ⟨first, List.mem_of_find?_eq_some hfind, charSupported_eq_false_iff.mp hfirst,
        exec_scrollText_of_find speed policy hi hlen hfind⟩

/-- Settles O38: the fresh animator is sound, and every other clause is one of its fields. -/
theorem scrollTextStartsTheAnimator : Obligations.ScrollTextStartsTheAnimator :=
  fun s text speed policy hi hne hlen hsup =>
    ⟨startAnimation s.cfg text speed policy, exec_scrollText_of_supported speed policy hi hne hlen hsup,
      startAnimation_sound s.cfg speed policy hne hlen, rfl, rfl, rfl, rfl, rfl, rfl, rfl⟩

/-! The flat glyph buffer (R86). -/

/-- Where blocks of one length follow each other, entry `k` of block `m` is found `m` blocks on. -/
theorem getElem?_flatMap_of_length {α β : Type} {f : α → List β} {n : Nat} (hf : ∀ a, (f a).length = n) {l : List α} {m k : Nat} {a : α}
    (ha : l[m]? = some a) (hk : k < n) : (l.flatMap f)[n * m + k]? = (f a)[k]? := by
  induction l generalizing m with
  | nil => cases ha
  | cons b l ih =>
    rw [List.flatMap_cons]
    cases m with
    | zero =>
      cases ha
      rw [Nat.mul_zero, Nat.zero_add, List.getElem?_append_left (by rwa [hf])]
    | succ m =>
      rw [List.getElem?_append_right (by rw [hf, Nat.mul_succ]; omega), hf, ← ih ha]
      congr 1
      rw [Nat.mul_succ]
      omega

/-- Row `k` of character `m` stands after the blank glyph and the characters before it (R86). -/
theorem getElem?_glyphBuffer (cfg : Config) {text : List Byte} {m k : Nat} {ch : Byte} (hch : text[m]? = some ch) (hk : k < 7) :
    (glyphBuffer cfg text)[7 * (m + 1) + k]? = some (glyphRow cfg ch k <<< preshiftBits cfg) := by
  have hblank : (List.replicate Config.glyphRows (0 : Byte)).length ≤ 7 * (m + 1) + k := by
    rw [List.length_replicate, Config.glyphRows]
    omega
  have hoffset : 7 * (m + 1) + k - (List.replicate Config.glyphRows (0 : Byte)).length = 7 * m + k := by
    rw [List.length_replicate, Config.glyphRows]
    omega
  rw [glyphBuffer, List.getElem?_append_right hblank, hoffset, getElem?_flatMap_of_length (n := 7) (by simp [Config.glyphRows]) hch hk]
  simp [Config.glyphRows, hk]

/-- Settles O41: a blank glyph, then the rows of each character's glyph under either pre-shift. -/
theorem glyphBufferLayout : Obligations.GlyphBufferLayout := by
  intro cfg text
  refine ⟨length_glyphBuffer cfg text, fun k hk => ?_, fun m k ch hch _ hk => ⟨fun h => ?_, fun h => ?_⟩⟩
  · rw [glyphBuffer, List.getElem?_append_left (by rwa [List.length_replicate]), List.getElem?_replicate]
    exact if_pos hk
  · rw [getElem?_glyphBuffer cfg hch hk, preshiftBits, h]
    rfl
  · rw [getElem?_glyphBuffer cfg hch hk, preshiftBits, h]
    rfl

/-! One turn of the animator (R84, R88, R91). -/

/-- On the foreground's turn, with no byte write to come, the animator takes its step (R84). -/
theorem step_animation {s : State} {a : Animation} (hturn : agentTurn s = .foreground) (hp : s.pending = []) (ha : s.anim = some a) :
    step s = .next (animationStep a (passTurn s)) := by
  rw [step_foreground hturn]
  exact foregroundTurn_anim (s := passTurn s) hp ha

theorem animationStep_cancelled {a : Animation} {s : State} (hphase : a.phase = .check) (hc : s.cancel = true) :
    animationStep a s = { s with cancel := false, anim := none } := by
  simp only [animationStep, hphase, hc, ↓reduceIte, clearCancel]

theorem animationStep_pushes {a : Animation} {s : State} (hphase : a.phase = .check) (hc : s.cancel = false) :
    animationStep a s = { displayMatrix (some (frameOf a.regs)) s with anim := some { a with phase := .hold } } := by
  simp only [animationStep, hphase, hc, Bool.false_eq_true, ↓reduceIte]

theorem animationStep_hold {a : Animation} {s : State} (hphase : a.phase = .hold) :
    animationStep a s = { s with anim := nextSubframe a } := by
  simp only [animationStep, hphase]

/-- Settles O43: the check finds CANCEL set, which the turn has left as it was. -/
theorem cancelledSubframeReturns : Obligations.CancelledSubframeReturns := by
  intro s a hturn hp ha hphase hc
  rw [step_animation hturn hp ha, animationStep_cancelled (s := passTurn s) hphase hc]

/-- Settles O47: nothing is checked before the flag is set. -/
theorem cancelSetsOnlyItsFlag : Obligations.CancelSetsOnlyItsFlag := fun _ => rfl

/-- The registers of a sound animator show the frame of its sub-frame (R88, R89). -/
theorem frameOf_regs {a : Animation} (ha : a.Sound) : frameOf a.regs = scrollFrame a.glyphs a.pair a.sub := by
  refine bitmap_ext fun r => ?_
  simp only [frameOf, scrollFrame, Fin.getElem_fin, Vector.getElem_ofFn]
  split
  · rw [ha.regs_eq r.val ‹_›]
  · rfl

/-- Settles O42: the frame shown is that of the sub-frame, and DISP_MATRIX stages its transform or nothing. -/
theorem subframePushesItsFrame : Obligations.SubframePushesItsFrame := by
  intro s a hturn hp ha hsound hphase hc
  have hstep : step s = .next { displayMatrix (some (scrollFrame a.glyphs a.pair a.sub)) (passTurn s) with
      anim := some { a with phase := .hold } } := by
    rw [step_animation hturn hp ha, animationStep_pushes (s := passTurn s) hphase hc, frameOf_regs hsound]
  refine ⟨fun p hxf => ?_, fun hori => ?_⟩
  · rw [hstep, displayMatrix_of_xf_some (s := passTurn s) hxf, stageWrites]
  · rw [hstep, displayMatrix_of_xf_none (s := passTurn s) (xf_of_gt s.cfg _ hori)]

/-! What follows a sub-frame (R88, R92). -/

theorem nextSubframe_shift {a : Animation} (h : a.sub + 1 < Config.subframes) :
    nextSubframe a = some { a with sub := a.sub + 1, regs := shiftRegs a.regs, phase := .check } := if_pos h

theorem nextSubframe_nextPair {a : Animation} (hsub : ¬ a.sub + 1 < Config.subframes) (h : a.pair + 1 < a.count) :
    nextSubframe a = some (loadPair a (a.pair + 1)) := (if_neg hsub).trans (if_pos h)

theorem nextSubframe_once {a : Animation} (hsub : ¬ a.sub + 1 < Config.subframes) (hpair : ¬ a.pair + 1 < a.count)
    (h : a.policy = .once) : nextSubframe a = none := by
  rw [nextSubframe, if_neg hsub, if_neg hpair, h]

theorem nextSubframe_forever {a : Animation} (hsub : ¬ a.sub + 1 < Config.subframes) (hpair : ¬ a.pair + 1 < a.count)
    (h : a.policy = .forever) : nextSubframe a = some (loadPair a 0) := by
  rw [nextSubframe, if_neg hsub, if_neg hpair, h]

/-- A next sub-frame begins at its check, of the same text under the same policy. -/
theorem nextSubframe_keeps {a b : Animation} (h : nextSubframe a = some b) :
    b.phase = .check ∧ b.policy = a.policy ∧ b.glyphs = a.glyphs ∧ b.count = a.count := by
  unfold nextSubframe at h
  split at h
  · cases h; exact ⟨rfl, rfl, rfl, rfl⟩
  · split at h
    · cases h; exact ⟨rfl, rfl, rfl, rfl⟩
    · split at h
      · cases h
      · cases h; exact ⟨rfl, rfl, rfl, rfl⟩

/-- Only the last sub-frame of a pass under once has no next one (R92). -/
theorem nextSubframe_eq_none_iff {a : Animation} :
    nextSubframe a = none ↔ ¬ a.sub + 1 < Config.subframes ∧ ¬ a.pair + 1 < a.count ∧ a.policy = .once := by
  by_cases hsub : a.sub + 1 < Config.subframes
  · simp [nextSubframe_shift hsub, hsub]
  by_cases hpair : a.pair + 1 < a.count
  · simp [nextSubframe_nextPair hsub hpair, hpair]
  cases hpolicy : a.policy with
  | once => simp [nextSubframe_once hsub hpair hpolicy, hsub, hpair]
  | forever => simp [nextSubframe_forever hsub hpair hpolicy]

/-! SCROLL_TEXT forever (R92). -/

/-- An animation under forever of the glyph buffer `glyphs` that nobody has cancelled or will cancel. -/
def ScrollsForever (glyphs : List Byte) (s : State) : Prop :=
  (∃ a, s.anim = some a ∧ a.policy = .forever ∧ a.glyphs = glyphs) ∧ s.cancel = false ∧ s.cancels = []

/-- A turn of an animator under forever that finds CANCEL clear leaves an animator for the same text (R92). -/
theorem animationStep_forever {a : Animation} {s : State} (hpolicy : a.policy = .forever) (hc : s.cancel = false) :
    ∃ b, (animationStep a s).anim = some b ∧ b.policy = .forever ∧ b.glyphs = a.glyphs ∧ (animationStep a s).cancel = false := by
  cases hphase : a.phase with
  | check =>
    rw [animationStep_pushes hphase hc]
    exact ⟨_, rfl, hpolicy, rfl, (displayMatrix_cancel _ s).trans hc⟩
  | hold =>
    rw [animationStep_hold hphase]
    cases hnext : nextSubframe a with
    | none => simp [nextSubframe_eq_none_iff.mp hnext] at hpolicy
    | some b =>
      obtain ⟨-, hpol, hglyphs, -⟩ := nextSubframe_keeps hnext
      exact ⟨b, rfl, hpol.trans hpolicy, hglyphs, hc⟩

/-- The canceller moves only if it has a call to make. -/
theorem cancels_ne_nil_of_cancellerCall {s : State} (h : activity s = .cancellerCall) : s.cancels ≠ [] := by
  intro hnil
  have hturn : agentTurn s ≠ .canceller := by cases ht : tickDue s <;> simp [agentTurn, ht, cancelDue, hnil]
  unfold activity at h
  split at h
  · cases h
  · exact hturn ‹_›
  · split at h
    · cases h
    · cases h
    · split at h <;> cases h

theorem step_keeps_scrollsForever {glyphs : List Byte} {s t : State} (hs : ScrollsForever glyphs s) (h : step s = .next t) :
    ScrollsForever glyphs t := by
  obtain ⟨⟨a, ha, hpolicy, hglyphs⟩, hc, hnil⟩ := hs
  obtain ⟨-, h⟩ | ⟨hact, -⟩ | ⟨i, v, ws, -, -, rfl⟩ | ⟨a', -, -, ha', rfl⟩ | ⟨-, ⟨-, hfree⟩, -⟩ | ⟨_, _, -, ⟨-, hfree⟩, -⟩ := step_cases h
  · obtain ⟨-, -, rfl⟩ := refreshTick_next h
    exact ⟨⟨a, by simpa using ha, hpolicy, hglyphs⟩, by simpa using hc, by simpa using hnil⟩
  · exact absurd hnil (cancels_ne_nil_of_cancellerCall hact)
  · exact ⟨⟨a, ha, hpolicy, hglyphs⟩, hc, by simp [passTurn_cancels, hnil]⟩
  · cases ha.symm.trans ha'
    obtain ⟨b, hb, hpol, hgl, hc'⟩ := animationStep_forever (s := passTurn s) hpolicy hc
    exact ⟨⟨b, hb, hpol, hgl.trans hglyphs⟩, hc', by simp [passTurn_cancels, hnil]⟩
  all_goals simp [ha] at hfree

theorem run_keeps_scrollsForever {glyphs : List Byte} {k : Nat} {s u : State} (hs : ScrollsForever glyphs s) (h : run k s = .next u) :
    ScrollsForever glyphs u := by
  induction k generalizing s with
  | zero => cases h; exact hs
  | succ k ih =>
    obtain ⟨t, hstep, hrun⟩ := run_succ_next h
    exact ih (step_keeps_scrollsForever hs hstep) hrun

/-- Settles O46: no step ends the animation, and the last sub-frame of a pass is followed by the first pair. -/
theorem scrollForeverDoesNotReturn : Obligations.ScrollForeverDoesNotReturn := by
  refine ⟨fun s u a k ha hpolicy hc hnil hrun => ?_, fun s a hturn hp ha hpolicy hphase hsub hpair => ?_⟩
  · obtain ⟨hanim, -, -⟩ := run_keeps_scrollsForever ⟨⟨a, ha, hpolicy, rfl⟩, hc, hnil⟩ hrun
    exact hanim
  · have hlast : ¬ a.sub + 1 < Config.subframes := by rw [hsub, Config.subframes]; decide
    refine ⟨loadPair a 0, ?_, rfl, fun r hr => getElem_pairRegs a.glyphs 0 r hr⟩
    rw [step_animation hturn hp ha, animationStep_hold hphase, nextSubframe_forever hlast (by omega) hpolicy]

/-! Counting foreground turns and frames pushed (R30, R93). -/

theorem foregroundTurns_succ_of_next {k : Nat} {s t : State} (h : step s = .next t) :
    foregroundTurns (k + 1) s = (if agentTurn s = .foreground then 1 else 0) + foregroundTurns k t := by
  rw [foregroundTurns, h]

theorem framesPushed_succ_of_next {k : Nat} {s t : State} (h : step s = .next t) :
    framesPushed (k + 1) s = (if pushesFrame s then 1 else 0) + framesPushed k t := by
  rw [framesPushed, h]

theorem framesPushed_add {j k : Nat} {s t : State} (h : run j s = .next t) :
    framesPushed (j + k) s = framesPushed j s + framesPushed k t := by
  induction j generalizing s with
  | zero => cases h; simp [framesPushed]
  | succ j ih =>
    obtain ⟨v, hv, hr⟩ := run_succ_next h
    rw [Nat.add_right_comm, framesPushed_succ_of_next hv, framesPushed_succ_of_next hv, ih hr, Nat.add_assoc]

/-- A step pushes a frame exactly on a turn of the animator at a check with CANCEL clear (R88, R91). -/
theorem pushesFrame_iff {s : State} :
    pushesFrame s = true ↔ activity s = .animation ∧ s.cancel = false ∧ ∃ a, s.anim = some a ∧ a.phase = .check := by
  unfold pushesFrame
  split
  next a hact ha => simp [hact, ha, and_comm]
  next hno =>
    simp only [Bool.false_eq_true, false_iff]
    rintro ⟨hact, -, a, ha, -⟩
    exact hno a hact ha

/-- The animator moves on the foreground's turn when no byte write is to come (R59, R84). -/
theorem activity_eq_animation_iff {s : State} :
    activity s = .animation ↔ agentTurn s = .foreground ∧ s.pending = [] ∧ s.anim ≠ none := by
  cases hturn : agentTurn s with
  | multiplexer => simp [activity, hturn]
  | canceller => simp [activity, hturn]
  | foreground =>
    cases hp : s.pending with
    | cons w ws => simp [activity, hturn, hp]
    | nil =>
      cases ha : s.anim with
      | some a => simp [activity, hturn, hp, ha]
      | none => cases hf : fetch s <;> simp [activity, hturn, hp, ha, hf]

theorem pushesFrame_of_cancel {s : State} (h : s.cancel = true) : pushesFrame s = false := by
  rw [← Bool.not_eq_true, pushesFrame_iff, h]
  simp

theorem pushesFrame_of_pending {s : State} (h : s.pending ≠ []) : pushesFrame s = false := by
  rw [← Bool.not_eq_true, pushesFrame_iff, activity_eq_animation_iff]
  rintro ⟨⟨-, hp, -⟩, -⟩
  exact h hp

theorem pushesFrame_of_hold {s : State} {a : Animation} (ha : s.anim = some a) (h : a.phase = .hold) : pushesFrame s = false := by
  rw [← Bool.not_eq_true, pushesFrame_iff, ha]
  simp [h]

theorem pushesFrame_of_check {s : State} {a : Animation} (hturn : agentTurn s = .foreground) (hp : s.pending = [])
    (ha : s.anim = some a) (hphase : a.phase = .check) (hc : s.cancel = false) : pushesFrame s = true :=
  pushesFrame_iff.mpr ⟨activity_eq_animation_iff.mpr ⟨hturn, hp, by simp [ha]⟩, hc, a, ha, hphase⟩

/-- While byte writes are to come no frame is pushed, whatever the other agents do (R59). -/
theorem framesPushed_of_pending {n : Nat} {s : State} (h : n ≤ s.pending.length) : framesPushed n s = 0 := by
  induction n generalizing s with
  | zero => rfl
  | succ n ih =>
    obtain ⟨⟨i, v⟩, ws, hp⟩ := List.exists_cons_of_length_pos (Nat.lt_of_lt_of_le (Nat.zero_lt_succ n) h)
    cases hstep : step s with
    | fault r => rw [framesPushed, hstep]
    | refused r => rw [framesPushed, hstep]
    | next t =>
      have ht : n ≤ t.pending.length := by
        obtain ⟨-, htp, -⟩ | ⟨-, rfl⟩ := step_of_pending hp hstep
        · rw [htp]; omega
        · rw [hp] at h
          exact Nat.le_of_succ_le_succ h
      rw [framesPushed_succ_of_next hstep, pushesFrame_of_pending (by simp [hp]), ih ht]
      rfl

/-! A cancelled animation (R91). -/

/-- The foreground turns from the start of a phase to the check that follows, that check included. -/
def phaseTurns : AnimPhase → Nat
  | .check => 1
  | .hold => 2

/-- How many foreground turns a cancelled animation takes to return at most: its byte writes, its delay, its check (R91, log 5, 13). -/
def turnsToReturn (s : State) : Nat :=
  match s.anim with
  | none => 0
  | some a => s.pending.length + phaseTurns a.phase

theorem turnsToReturn_of_none {s : State} (h : s.anim = none) : turnsToReturn s = 0 := by rw [turnsToReturn, h]

theorem turnsToReturn_of_some {s : State} {a : Animation} (h : s.anim = some a) :
    turnsToReturn s = s.pending.length + phaseTurns a.phase := by rw [turnsToReturn, h]

theorem turnsToReturn_pos {s : State} {a : Animation} (h : s.anim = some a) : 0 < turnsToReturn s := by
  have hphase : 0 < phaseTurns a.phase := by cases a.phase <;> decide
  rw [turnsToReturn_of_some h]
  omega

theorem turnsToReturn_le_ten {s : State} (hs : s.Inv) : turnsToReturn s ≤ 10 := by
  have hpending := hs.pending_le
  cases ha : s.anim with
  | none => rw [turnsToReturn_of_none ha]; omega
  | some a =>
    have hphase : phaseTurns a.phase ≤ 2 := by cases a.phase <;> decide
    rw [turnsToReturn_of_some ha]
    omega

/-- Nothing runs, or it finds CANCEL set. -/
def Cancelled (s : State) : Prop := s.anim = none ∨ s.cancel = true

/-- With CANCEL set the animator returns at a check, and after a delay returns or comes to one (R91, R92). -/
theorem animationStep_cancelled_cases {a : Animation} {s : State} (hp : s.pending = []) (hc : s.cancel = true) :
    Cancelled (animationStep a s) ∧ turnsToReturn (animationStep a s) + 1 ≤ phaseTurns a.phase := by
  cases hphase : a.phase with
  | check =>
    rw [animationStep_cancelled hphase hc]
    exact ⟨.inl rfl, Nat.le_refl 1⟩
  | hold =>
    rw [animationStep_hold hphase]
    refine ⟨.inr hc, ?_⟩
    cases hnext : nextSubframe a with
    | none => rw [turnsToReturn_of_none rfl]; decide
    | some b =>
      obtain ⟨hcheck, -⟩ := nextSubframe_keeps hnext
      rw [turnsToReturn_of_some rfl, hcheck, hp]
      rfl

/-- Every foreground turn of a cancelled animation brings its return nearer, and no other turn puts it off (R91). -/
theorem step_towards_return {s t : State} {a : Animation} (ha : s.anim = some a) (hc : s.cancel = true) (h : step s = .next t) :
    Cancelled t ∧ turnsToReturn t + (if agentTurn s = .foreground then 1 else 0) ≤ turnsToReturn s := by
  cases hturn : agentTurn s with
  | multiplexer =>
    rw [step_multiplexer hturn] at h
    obtain ⟨-, -, rfl⟩ := refreshTick_next h
    exact ⟨.inr (by simpa using hc), by simp [turnsToReturn]⟩
  | canceller =>
    rw [step_canceller hturn] at h
    cases h
    exact ⟨.inr rfl, by simp [turnsToReturn]⟩
  | foreground =>
    rw [turnsToReturn_of_some ha, if_pos rfl]
    cases hp : s.pending with
    | cons w ws =>
      obtain ⟨i, v⟩ := w
      rw [step_foreground hturn, foregroundTurn_write (s := passTurn s) hp] at h
      cases h
      refine ⟨.inr hc, ?_⟩
      have hleft : turnsToReturn (writeFb (stageWrites (passTurn s) ws) i v) = ws.length + phaseTurns a.phase := turnsToReturn_of_some ha
      rw [hleft, List.length_cons]
      omega
    | nil =>
      rw [step_animation hturn hp ha] at h
      cases h
      simpa using animationStep_cancelled_cases (s := passTurn s) hp hc

/-- Within `k` steps, of which at most `turnsToReturn s` are the foreground's, the animation is over, and no frame has been pushed. -/
def ReturnsWithin (k : Nat) (s : State) : Prop :=
  ∃ j u, j ≤ k ∧ foregroundTurns j s ≤ turnsToReturn s ∧ run j s = .next u ∧ u.anim = none ∧ framesPushed j s = 0

theorem ReturnsWithin.of_none {s : State} (k : Nat) (h : s.anim = none) : ReturnsWithin k s :=
  ⟨0, s, Nat.zero_le k, Nat.zero_le _, rfl, h, rfl⟩

theorem ReturnsWithin.of_step {k : Nat} {s t : State} {a : Animation} (ha : s.anim = some a) (hc : s.cancel = true)
    (hstep : step s = .next t) (ht : ReturnsWithin k t) : ReturnsWithin (k + 1) s := by
  obtain ⟨j, u, hj, hturns, hrun, hu, hframes⟩ := ht
  obtain ⟨-, hnearer⟩ := step_towards_return ha hc hstep
  refine ⟨j + 1, u, by omega, ?_, (run_succ_of_next hstep).trans hrun, hu, ?_⟩
  · rw [foregroundTurns_succ_of_next hstep]
    omega
  · rw [framesPushed_succ_of_next hstep, pushesFrame_of_cancel hc, hframes]
    rfl

/-- A cancelled animation returns within `k` steps if some measure of what is still to pass lets it always take a step. -/
theorem returnsWithin_of_progress {P : Nat → State → Prop}
    (hP : ∀ {k s a}, s.anim = some a → s.cancel = true → P k s → ∃ j t, k = j + 1 ∧ step s = .next t ∧ P j t)
    {k : Nat} {s : State} (hs : Cancelled s) (hk : P k s) : ReturnsWithin k s := by
  induction k generalizing s with
  | zero =>
    cases ha : s.anim with
    | none => exact .of_none 0 ha
    | some a =>
      obtain ⟨j, t, hj, -⟩ := hP ha (hs.resolve_left (by simp [ha])) hk
      cases hj
  | succ k ih =>
    cases ha : s.anim with
    | none => exact .of_none _ ha
    | some a =>
      have hc : s.cancel = true := hs.resolve_left (by simp [ha])
      obtain ⟨j, t, hj, hstep, ht⟩ := hP ha hc hk
      cases hj
      exact .of_step ha hc hstep (ih (step_towards_return ha hc hstep).1 ht)

/-- A foreground turn is counted only after a step that went on. -/
theorem step_of_foregroundTurns_pos {k : Nat} {s : State} (h : 0 < foregroundTurns k s) : ∃ j t, k = j + 1 ∧ step s = .next t := by
  cases k with
  | zero => cases h
  | succ k =>
    cases hstep : step s with
    | next t => exact ⟨k, t, rfl, rfl⟩
    | fault r => rw [foregroundTurns, hstep] at h; cases h
    | refused r => rw [foregroundTurns, hstep] at h; cases h

/-- However the other agents interleave, enough foreground turns end a cancelled animation (R91). -/
theorem returnsWithin_of_foregroundTurns {k : Nat} {s : State} (hs : Cancelled s) (hk : turnsToReturn s ≤ foregroundTurns k s) :
    ReturnsWithin k s := by
  refine returnsWithin_of_progress (P := fun k s => turnsToReturn s ≤ foregroundTurns k s) (fun {k s a} ha hc hk => ?_) hs hk
  obtain ⟨j, t, rfl, hstep⟩ := step_of_foregroundTurns_pos ((turnsToReturn_pos ha).trans_le hk)
  obtain ⟨-, hnearer⟩ := step_towards_return ha hc hstep
  rw [foregroundTurns_succ_of_next hstep] at hk
  exact ⟨j, t, rfl, hstep, by omega⟩

/-- In a quiet stretch an animation always has a step to take. -/
theorem step_of_quiet_animation {k : Nat} {s : State} {a : Animation} (hq : Quiet (k + 1) s) (ha : s.anim = some a) :
    ∃ t, step s = .next t ∧ Quiet k t := by
  have hturn := agentTurn_of_quiet hq
  cases hp : s.pending with
  | cons w ws =>
    rw [step_foreground hturn, foregroundTurn_write (s := passTurn s) hp]
    exact ⟨_, rfl, quiet_passTurn hq⟩
  | nil =>
    rw [step_animation hturn hp ha]
    exact ⟨_, rfl, quiet_congr (animationStep_timer a _) (animationStep_untilTick a _) (animationStep_cancels a _) (quiet_passTurn hq)⟩

/-- Left to itself a cancelled animation returns in as many steps as it takes turns (R91). -/
theorem returnsWithin_of_quiet {k : Nat} {s : State} (hs : Cancelled s) (hq : Quiet k s) (hk : turnsToReturn s ≤ k) :
    ReturnsWithin k s := by
  refine returnsWithin_of_progress (P := fun k s => Quiet k s ∧ turnsToReturn s ≤ k) (fun {k s a} ha hc hk => ?_) hs ⟨hq, hk⟩
  obtain ⟨hq, hk⟩ := hk
  obtain ⟨j, rfl⟩ := Nat.exists_eq_add_of_le' ((turnsToReturn_pos ha).trans_le hk)
  obtain ⟨t, hstep, hqt⟩ := step_of_quiet_animation hq ha
  obtain ⟨-, hnearer⟩ := step_towards_return ha hc hstep
  rw [if_pos (agentTurn_of_quiet hq)] at hnearer
  exact ⟨j, t, rfl, hstep, hqt, by omega⟩

/-- Settles O44: at most ten foreground turns are left, and enough of them pass, among other agents' turns or in a quiet stretch. -/
theorem cancelIsSeenWithinOneSubframe : Obligations.CancelIsSeenWithinOneSubframe := by
  intro s hs _ hc
  have hten := turnsToReturn_le_ten hs
  refine ⟨fun k hk => ?_, fun hq => ?_⟩
  · obtain ⟨j, u, hj, hturns, hrest⟩ := returnsWithin_of_foregroundTurns (.inr hc) (hten.trans hk)
    exact ⟨j, u, hj, hturns.trans hten, hrest⟩
  · obtain ⟨j, u, hj, -, hrest⟩ := returnsWithin_of_quiet (.inr hc) hq hten
    exact ⟨j, u, hj, hrest⟩

/-! SCROLL_TEXT once, left alone (R87, R88, R92, R93). -/

theorem afterTurns_add (j k : Nat) (s : State) : afterTurns (j + k) s = afterTurns k (afterTurns j s) := by
  rw [Nat.add_comm, afterTurns, afterTurns, afterTurns, Function.iterate_add_apply]

/-- Passing turns changes nothing that one turn leaves as it was. -/
theorem afterTurns_keeps {α : Type} {f : State → α} (hf : ∀ s, f (passTurn s) = f s) (k : Nat) (s : State) :
    f (afterTurns k s) = f s := by
  induction k generalizing s with
  | zero => rfl
  | succ k ih => exact (ih (passTurn s)).trans (hf s)

@[simp] theorem afterTurns_cfg (k : Nat) (s : State) : (afterTurns k s).cfg = s.cfg := afterTurns_keeps passTurn_cfg k s
@[simp] theorem afterTurns_ori (k : Nat) (s : State) : (afterTurns k s).ori = s.ori := afterTurns_keeps passTurn_ori k s
@[simp] theorem afterTurns_cancel (k : Nat) (s : State) : (afterTurns k s).cancel = s.cancel := afterTurns_keeps passTurn_cancel k s

/-- `s` with the Frame Buffer at `p`, no byte write to come, and the animator `o`. -/
def showing (s : State) (p : Bitmap) (o : Option Animation) : State := { s with fb := p, pending := [], anim := o }

theorem showing_showing (s : State) (p q : Bitmap) (o o' : Option Animation) : showing (showing s p o) q o' = showing s q o' := rfl

theorem showing_none_of_free {s : State} (p : Bitmap) (h : ForegroundFree s) : showing s p none = { s with fb := p } := by
  obtain ⟨hpending, hanim⟩ := h
  rw [showing, ← hpending, ← hanim]

/-- The countdowns do not depend on the Frame Buffer or the foreground's work. -/
theorem afterTurns_showing (k : Nat) (s : State) (p : Bitmap) (o : Option Animation) :
    afterTurns k (showing s p o) = showing (afterTurns k s) p o := by
  induction k generalizing s with
  | zero => rfl
  | succ k ih => exact ih (passTurn s)

theorem quiet_afterTurns {j k : Nat} {s : State} (h : Quiet (j + k) s) : Quiet k (afterTurns j s) := by
  induction j generalizing s with
  | zero => rwa [Nat.zero_add] at h
  | succ j ih =>
    rw [Nat.add_right_comm] at h
    exact ih (quiet_passTurn h)

/-- The sound animator `a` is at the check of a sub-frame, with CANCEL clear and no byte write to come (R88). -/
structure AtCheck (a : Animation) (s : State) : Prop where
  pending : s.pending = []
  anim : s.anim = some a
  sound : a.Sound
  phase : a.phase = .check
  cancel : s.cancel = false

/-- The check of a sub-frame left alone, and its eight byte writes: nine turns that push one frame and show it (R59, R88). -/
theorem run_check {s : State} {a : Animation} {p : Bitmap} (hs : AtCheck a s) (hq : Quiet 9 s)
    (hxf : xf s.cfg s.ori (scrollFrame a.glyphs a.pair a.sub) = some p) :
    run 9 s = .next (showing (afterTurns 9 s) p (some { a with phase := .hold })) ∧ framesPushed 9 s = 1 := by
  obtain ⟨hp, ha, hsound, hphase, hc⟩ := hs
  have hturn := agentTurn_of_quiet hq
  obtain ⟨hpush, -⟩ := subframePushesItsFrame s a hturn hp ha hsound hphase hc
  have hcheck := hpush p hxf
  constructor
  · have hwrites := run_stageWrites { passTurn s with anim := some { a with phase := .hold } } (bitmapWrites p)
      (by rw [length_bitmapWrites]; exact quiet_passTurn hq)
    rw [length_bitmapWrites, landWrites_bitmapWrites] at hwrites
    exact (run_succ_of_next hcheck).trans hwrites
  · rw [framesPushed_succ_of_next hcheck, pushesFrame_of_check hturn hp ha hphase hc,
      framesPushed_of_pending (Nat.le_of_eq (length_bitmapWrites p).symm)]
    rfl

/-- The delay of a sub-frame is one turn, which pushes no frame (R90, log 13). -/
theorem run_hold {s : State} {a : Animation} (hq : Quiet 1 s) (hp : s.pending = []) (ha : s.anim = some a) (hphase : a.phase = .hold) :
    run 1 s = .next { passTurn s with anim := nextSubframe a } ∧ framesPushed 1 s = 0 := by
  have hstep := step_animation (agentTurn_of_quiet hq) hp ha
  rw [animationStep_hold hphase] at hstep
  exact ⟨run_succ_of_next hstep, by rw [framesPushed_succ_of_next hstep, pushesFrame_of_hold ha hphase]; rfl⟩

/-- A sub-frame left alone takes ten turns; it pushes one frame, shows it, and goes on to what follows (R88, R93, log 5, 13). -/
theorem run_subframe {s : State} {a : Animation} {p : Bitmap} (hs : AtCheck a s) (hq : Quiet 10 s)
    (hxf : xf s.cfg s.ori (scrollFrame a.glyphs a.pair a.sub) = some p) :
    run 10 s = .next (showing (afterTurns 10 s) p (nextSubframe { a with phase := .hold })) ∧ framesPushed 10 s = 1 := by
  obtain ⟨hshown, hpushed⟩ := run_check hs (quiet_of_le (by decide) hq) hxf
  obtain ⟨hdelayed, hidle⟩ := run_hold
    (s := showing (afterTurns 9 s) p (some { a with phase := .hold }))
    (quiet_afterTurns (j := 9) (k := 1) hq) rfl rfl rfl
  exact ⟨(run_add hshown).trans hdelayed, by rw [framesPushed_add (k := 1) hshown, hpushed, hidle]⟩

/-- The sub-frames of a pass left to show, the one at hand included (R87, R88). -/
def subframesLeft (a : Animation) : Nat := Config.subframes * (a.count - a.pair) - a.sub

theorem subframesLeft_pos {a : Animation} (ha : a.Sound) : 0 < subframesLeft a := by
  have hpair := ha.pair_lt
  have hsub := ha.sub_lt
  simp only [subframesLeft, Config.subframes] at *
  omega

/-- Under once a sub-frame is the last of all, or the next one has one fewer left (R87, R88, R92). -/
theorem nextSubframe_once_cases {a : Animation} (ha : a.Sound) (hpolicy : a.policy = .once) :
    (nextSubframe a = none ∧ subframesLeft a = 1 ∧ a.pair = a.count - 1 ∧ a.sub = 5) ∨
      ∃ b, nextSubframe a = some b ∧ subframesLeft a = subframesLeft b + 1 := by
  have hpair := ha.pair_lt
  have hsub := ha.sub_lt
  by_cases hshift : a.sub + 1 < Config.subframes
  · refine .inr ⟨_, nextSubframe_shift hshift, ?_⟩
    simp only [subframesLeft, Config.subframes] at *
    omega
  by_cases hload : a.pair + 1 < a.count
  · refine .inr ⟨_, nextSubframe_nextPair hshift hload, ?_⟩
    simp only [subframesLeft, loadPair, Config.subframes] at *
    omega
  · refine .inl ⟨nextSubframe_once hshift hload hpolicy, ?_⟩
    simp only [subframesLeft, Config.subframes] at *
    omega

/-- Every bitmap has a transform under a legal orientation (R57). -/
theorem exists_xf_of_le (cfg : Config) {ori : Byte} (l : Bitmap) (h : ori.toNat ≤ 3) : ∃ p, xf cfg ori l = some p := by
  obtain ⟨o, ho⟩ := orientationOf_of_le h
  exact ⟨orient cfg o l, by rw [xf, ho]; rfl⟩

/-- An animation under once, left alone, shows its remaining sub-frames in ten turns each and returns (R88, R92, R93). -/
theorem run_subframesLeft {n : Nat} {s : State} {a : Animation} (hs : AtCheck a s) (hn : subframesLeft a = n) (hq : Quiet (10 * n) s)
    (hpolicy : a.policy = .once) (hori : s.ori.toNat ≤ 3) :
    ∃ p, framesPushed (10 * n) s = n ∧ xf s.cfg s.ori (scrollFrame a.glyphs (a.count - 1) 5) = some p ∧
      run (10 * n) s = .next (showing (afterTurns (10 * n) s) p none) := by
  induction n generalizing s a with
  | zero => exact absurd hn (Nat.ne_of_gt (subframesLeft_pos hs.sound))
  | succ n ih =>
    obtain ⟨p, hxf⟩ := exists_xf_of_le s.cfg (scrollFrame a.glyphs a.pair a.sub) hori
    obtain ⟨hrun, hpushed⟩ := run_subframe hs (quiet_of_le (by omega) hq) hxf
    obtain ⟨hnext, hone, hpair, hsub⟩ | ⟨b, hnext, hfewer⟩ :=
      nextSubframe_once_cases (a := { a with phase := .hold }) { hs.sound with } hpolicy
    · obtain rfl : n = 0 := Nat.succ.inj (hn.symm.trans hone)
      rw [hnext] at hrun
      rw [hpair, hsub] at hxf
      exact ⟨p, hpushed, hxf, hrun⟩
    · rw [hnext] at hrun
      obtain ⟨hcheck, hpol, hglyphs, hcount⟩ := nextSubframe_keeps hnext
      have hb : b.Sound := nextSubframe_sound (a := { a with phase := .hold }) { hs.sound with } hnext
      have hten : 10 * (n + 1) = 10 + 10 * n := by omega
      rw [hten] at hq ⊢
      obtain ⟨q, hpushed', hxf', hrun'⟩ := ih (s := showing (afterTurns 10 s) p (some b))
        ⟨rfl, rfl, hb, hcheck, (afterTurns_cancel 10 s).trans hs.cancel⟩ (Nat.succ.inj (hfewer.symm.trans hn))
        (quiet_afterTurns (j := 10) (k := 10 * n) hq) (hpol.trans hpolicy) (by rwa [showing, afterTurns_ori])
      rw [showing, afterTurns_cfg, afterTurns_ori, hglyphs, hcount] at hxf'
      rw [afterTurns_showing, showing_showing, ← afterTurns_add] at hrun'
      refine ⟨q, ?_, hxf', (run_add hrun).trans hrun'⟩
      rw [framesPushed_add hrun, hpushed, hpushed', Nat.add_comm]

/-- Settles O45: the fresh animator is at the check of the first of `6 n` sub-frames. -/
theorem scrollOnceProducesSixFramesPerCharacter : Obligations.ScrollOnceProducesSixFramesPerCharacter := by
  intro s text speed hi hori hfree hc hne hlen hsup hq
  have hn : 60 * text.length = 10 * (6 * text.length) := by omega
  rw [hn] at hq ⊢
  have hstart : AtCheck (startAnimation s.cfg text speed .once) { s with anim := some (startAnimation s.cfg text speed .once) } :=
    ⟨hfree.1, rfl, startAnimation_sound s.cfg speed .once hne hlen, rfl, hc⟩
  obtain ⟨p, hpushed, hxf, hrun⟩ := run_subframesLeft (n := 6 * text.length) hstart rfl hq rfl hori
  refine ⟨_, p, exec_scrollText_of_supported speed .once hi hne hlen hsup, hpushed, hxf, hrun.trans ?_⟩
  have hfreed : showing { s with anim := some (startAnimation s.cfg text speed .once) } p none = { s with fb := p } :=
    showing_none_of_free p hfree
  rw [← afterTurns_showing, hfreed, afterTurns_withFb]

end Sys2Proof.Machine
end

section
/-! PROOFS. Family 60_exceptions.md: the refusal of shared pins (R107), the pin writes of a tick one by one (R106), and the turns of the timer and of
the canceller (R101, R103, R105). -/

namespace Sys2Proof.Machine

/-! Shared pins (R107). -/

/-- With two lines on one pin the pin check refuses, whatever follows it (R107). -/
theorem requirePins_of_not {s : State} {k : Host.Outcome State Fault Refusal} (h : ¬ pinsDistinct s.cfg) :
    requirePins s k = .refused .pinsShared := if_neg h

/-- Settles O5: INIT begins with the pin check, and TICK comes to it once INITED. -/
theorem sharedPinsAreRefused : Obligations.SharedPinsAreRefused := fun _ hp =>
  ⟨requirePins_of_not hp, fun hi => (requireInited_of hi).trans (requirePins_of_not hp)⟩

/-! The pin writes of a tick, one by one (R45, R106). -/

theorem getElem?_rowsOff (cfg : Config) (r : Index) : (rowsOff cfg)[r.val]? = some (.row r, !cfg.rowActive) := by
  simp [rowsOff]

theorem getElem?_columnWrites (v : Byte) (c : Index) : (columnWrites v)[c.val]? = some (.col c, v.getLsbD c.val) := by
  simp [columnWrites]

theorem length_tickPinWrites (cfg : Config) (c : Index) (v : Byte) : (tickPinWrites cfg c v).length = 17 := by
  simp [tickPinWrites]

/-- A tick's first eight writes turn the rows off. -/
theorem getElem?_tickPinWrites_row (cfg : Config) (c : Index) (v : Byte) (r : Index) :
    (tickPinWrites cfg c v)[r.val]? = some (.row r, !cfg.rowActive) := by
  have hr : r.val < (rowsOff cfg).length := by rw [length_rowsOff]; exact r.isLt
  rw [tickPinWrites, List.append_assoc, List.getElem?_append_left hr, getElem?_rowsOff]

/-- A tick's next eight writes put the pattern on the columns. -/
theorem getElem?_tickPinWrites_col (cfg : Config) (c : Index) (v : Byte) (k : Index) :
    (tickPinWrites cfg c v)[8 + k.val]? = some (.col k, v.getLsbD k.val) := by
  have hk : k.val < (columnWrites v).length := by rw [length_columnWrites]; exact k.isLt
  rw [tickPinWrites, List.append_assoc, List.getElem?_append_right (by simp), length_rowsOff, Nat.add_sub_cancel_left,
    List.getElem?_append_left hk, getElem?_columnWrites]

/-- A tick's last write turns one row on. -/
theorem getElem?_tickPinWrites_last (cfg : Config) (c : Index) (v : Byte) :
    (tickPinWrites cfg c v)[16]? = some (.row c, cfg.rowActive) := by
  rw [tickPinWrites, List.getElem?_append_right (by simp)]
  simp [rowOn]

/-- The byte a tick puts on the columns, bit by bit (R46). -/
theorem getLsbD_scannedPattern (s : State) (c : Index) :
    (scannedPattern s).getLsbD c.val = !(s.fb[mirror (cursorIndex s.cur)]).getLsbD c.val := by
  rw [scannedPattern, readFb, BitVec.getLsbD_not, decide_eq_true c.isLt, Bool.true_and]

/-- Settles O12: the writes are found one by one, and all seventeen leave the levels of the tick's next state. -/
theorem tickMakesSeventeenPinWrites : Obligations.TickMakesSeventeenPinWrites := by
  intro s t h ws
  refine ⟨length_tickPinWrites _ _ _, getElem?_tickPinWrites_row _ _ _, fun c => ?_, getElem?_tickPinWrites_last _ _ _, ?_⟩
  · rw [← getLsbD_scannedPattern s c]
    exact getElem?_tickPinWrites_col _ _ _ c
  · obtain ⟨-, -, rfl⟩ := exec_tick_next h
    rw [writePins_tick]
    rfl

/-! The turns of the timer and of the canceller (R94, R101, R105). -/

/-- A due canceller call takes its turn when no timer expiry is due (log 6). -/
theorem agentTurn_of_cancelDue {s : State} (htick : tickDue s = false) (hcancel : cancelDue s = true) : agentTurn s = .canceller := by
  simp [agentTurn, htick, hcancel]

/-- Settles O51: a due expiry is the multiplexer's turn, and a due call without one is the canceller's. -/
theorem otherAgentsTakeTheirTurns : Obligations.OtherAgentsTakeTheirTurns := by
  refine ⟨fun s htimer hzero => ?_, fun s gs hnot hcancels => ?_⟩
  · exact step_multiplexer (agentTurn_multiplexer.mpr (tickDue_iff.mpr ⟨htimer, hzero⟩))
  · have htick : tickDue s = false := Bool.eq_false_iff.mpr (hnot ∘ tickDue_iff.mp)
    have hcancel : cancelDue s = true := by rw [cancelDue, hcancels]; rfl
    rw [step_canceller (agentTurn_of_cancelDue htick hcancel), cancellerTurn, hcancels]
    rfl

/-- A step is a timer tick only when an expiry is due (R101). -/
theorem tickDue_of_activity_timerTick {s : State} (h : activity s = .timerTick) : tickDue s = true := by
  rw [← agentTurn_multiplexer]
  unfold activity at h
  split at h
  · assumption
  · cases h
  · split at h
    · cases h
    · cases h
    · split at h <;> cases h

/-- Under EXTERNAL the invariant leaves no timer (R74). -/
theorem timer_of_external {s : State} (hs : s.Inv) (h : s.cfg.tmode = .external) : s.timer = none := by
  rw [hs.timer, h]
  simp

/-- Settles O53: a timer tick needs a timer, and under EXTERNAL there is none. -/
theorem externalModeHasNoTimerTick : Obligations.ExternalModeHasNoTimerTick := by
  intro s hs hext hact
  obtain ⟨htimer, -⟩ := tickDue_iff.mp (tickDue_of_activity_timerTick hact)
  rw [timer_of_external hs hext] at htimer
  cases htimer

end Sys2Proof.Machine
end

section
/-! PROOFS. Family 70_reset_and_hazards.md: before INIT no step reads the block's registers (R112), and a scheduled tick comes when its gap has
passed (R105, R124). -/

namespace Sys2Proof.Machine

/-! Before INIT (R21, R112). -/

/-- Before INIT nothing is scheduled and the foreground is in no operation (R21, R78). -/
theorem State.Inv.idle_before_init {s : State} (hs : s.Inv) (hi : s.inited = false) : s.timer = none ∧ ForegroundFree s := by
  refine ⟨by rw [hs.timer, hi]; rfl, ?_, Option.eq_none_iff_forall_ne_some.mpr fun a ha => ?_⟩
  · by_contra hp
    cases hi.symm.trans (hs.pending hp)
  · obtain ⟨hi', -⟩ := hs.anim a ha
    cases hi.symm.trans hi'

/-- INIT reads none of the registers it writes (R73). -/
theorem execInit_withRegisters (s : State) (fb : Bitmap) (cur : BitVec 3) (ori : Byte) (row col : BitVec 8) :
    execInit (withRegisters s fb cur ori row col) = execInit s := by
  by_cases hp : pinsDistinct s.cfg
  · rw [execInit_of hp, execInit_of (s := withRegisters s fb cur ori row col) hp]
    rfl
  · exact (requirePins_of_not hp).trans (requirePins_of_not hp).symm

/-- Two outcomes agree up to `replace` until INIT: refused alike, the same initialized state, or states before INIT that differ by `replace`. -/
inductive AgreeUntilInit (replace : State → State) :
    Host.Outcome State Fault Refusal → Host.Outcome State Fault Refusal → Prop
  | refused (r : Refusal) : AgreeUntilInit replace (.refused r) (.refused r)
  | initialized {t : State} (h : t.inited = true) : AgreeUntilInit replace (.next t) (.next t)
  | before {t : State} (h : t.inited = false) : AgreeUntilInit replace (.next t) (.next (replace t))

section
variable (fb : Bitmap) (cur : BitVec 3) (ori : Byte) (row col : BitVec 8)

/-- INIT writes all five registers, CANCEL reads none of them, and the others are refused (R78). -/
theorem exec_agrees_until_init (i : Instr) {s : State} (hi : s.inited = false) :
    AgreeUntilInit (withRegisters · fb cur ori row col) (exec i s) (exec i (withRegisters s fb cur ori row col)) := by
  by_cases hinit : i = .init
  · subst hinit
    simp only [exec, execInit_withRegisters]
    by_cases hp : pinsDistinct s.cfg
    · rw [execInit_of hp]
      exact .initialized (scheduleTimer_inited _)
    · rw [execInit, requirePins_of_not hp]
      exact .refused _
  by_cases hcancel : i = .cancel
  · subst hcancel
    exact .before hi
  · rw [beforeInitOperationsAreRefused s i hi hinit hcancel,
      beforeInitOperationsAreRefused (withRegisters s fb cur ori row col) i hi hinit hcancel]
    exact .refused _

/-- Before INIT a free foreground idles, runs its command, or refuses the bytes, whatever the registers hold (R36, R112). -/
theorem foregroundTurn_agrees_until_init {s : State} (hi : s.inited = false) (hfree : ForegroundFree s) :
    AgreeUntilInit (withRegisters · fb cur ori row col) (foregroundTurn s) (foregroundTurn (withRegisters s fb cur ori row col)) := by
  have hfree' : ForegroundFree (withRegisters s fb cur ori row col) := hfree
  have hsame : fetch (withRegisters s fb cur ori row col) = fetch s := rfl
  cases hfetch : fetch s with
  | nothing =>
    rw [foregroundTurn_idle hfree hfetch, foregroundTurn_idle hfree' (hsame.trans hfetch)]
    exact .before hi
  | command i rest =>
    rw [foregroundTurn_command hfree hfetch, foregroundTurn_command hfree' (hsame.trans hfetch)]
    exact exec_agrees_until_init fb cur ori row col i (s := { s with commands := rest }) hi
  | invalid why =>
    rw [foregroundTurn_invalid hfree hfetch, foregroundTurn_invalid hfree' (hsame.trans hfetch)]
    exact .refused _

/-- Before INIT no expiry is due, the canceller reads no register, and neither does the foreground (R103, R112). -/
theorem step_agrees_until_init {s : State} (hs : s.Inv) (hi : s.inited = false) :
    AgreeUntilInit (withRegisters · fb cur ori row col) (step s) (step (withRegisters s fb cur ori row col)) := by
  obtain ⟨htimer, hfree⟩ := hs.idle_before_init hi
  have hsame : agentTurn (withRegisters s fb cur ori row col) = agentTurn s := rfl
  cases hturn : agentTurn s with
  | multiplexer =>
    obtain ⟨hrunning, -⟩ := tickDue_iff.mp (agentTurn_multiplexer.mp hturn)
    rw [htimer] at hrunning
    cases hrunning
  | canceller =>
    rw [step_canceller hturn, step_canceller (hsame.trans hturn)]
    exact .before hi
  | foreground =>
    rw [step_foreground hturn, step_foreground (hsame.trans hturn)]
    exact foregroundTurn_agrees_until_init fb cur ori row col (s := passTurn s) hi hfree

end

/-- Settles O7: the steps with and without the registers replaced agree until INIT. -/
theorem beforeInitNoRegisterIsRead : Obligations.BeforeInitNoRegisterIsRead := by
  intro s fb cur ori row col hs hi
  have hagree := step_agrees_until_init fb cur ori row col hs hi
  refine ⟨fun r h => ?_, fun t h => ?_⟩ <;> rw [h] at hagree
  · generalize step (withRegisters s fb cur ori row col) = o at hagree ⊢
    cases hagree
    rfl
  · generalize step (withRegisters s fb cur ori row col) = o at hagree ⊢
    cases hagree with
    | initialized ht => exact .inl ⟨ht, rfl⟩
    | before ht => exact .inr ⟨ht, rfl⟩

/-! The countdown to a scheduled tick (R105, R124; log 6, log 12). -/

/-- No operation touches a running timer or its countdown: a second INIT keeps both (log 12), a TICK command is not an expiry (log 20). -/
theorem exec_keeps_running_timer {i : Instr} {s t : State} (hrun : s.timer.isSome = true) (h : exec i s = .next t) :
    t.timer = s.timer ∧ t.untilTick = s.untilTick := by
  obtain ⟨-, h⟩ | ⟨dir, -, rfl⟩ | ⟨-, rfl⟩ | ⟨-, h⟩ | ⟨-, h, -⟩ | ⟨-, rfl | ⟨_, _, _, -, -, rfl⟩⟩ := exec_cases h
  · obtain ⟨-, ht⟩ := execInit_next h
    rw [ht, scheduleTimer_of_external_or_running]
    · exact ⟨rfl, rfl⟩
    · exact .inr hrun
  · exact ⟨rfl, rfl⟩
  · exact ⟨rfl, rfl⟩
  · obtain ⟨-, -, rfl⟩ := refreshTick_next h
    exact ⟨rfl, rfl⟩
  · rw [h]
    exact ⟨rfl, rfl⟩
  · exact ⟨rfl, rfl⟩
  · exact ⟨rfl, rfl⟩

/-- While a timer runs and no expiry is due, every step keeps the timer and counts one turn down (log 6). -/
theorem step_counts_down {s t : State} {n : Nat} (hrun : s.timer.isSome = true) (hn : s.untilTick = n + 1) (h : step s = .next t) :
    t.timer.isSome = true ∧ t.untilTick = n := by
  have hpass : (passTurn s).untilTick = n := by rw [passTurn_untilTick, if_pos hrun, hn, Nat.add_sub_cancel]
  obtain ⟨hact, -⟩ | ⟨-, rfl⟩ | ⟨i, v, ws, -, -, rfl⟩ | ⟨a, -, -, -, rfl⟩ | ⟨-, -, -, rfl⟩ | ⟨i, rest, -, -, -, h⟩ := step_cases h
  · obtain ⟨-, hzero⟩ := tickDue_iff.mp (tickDue_of_activity_timerTick hact)
    cases hn.symm.trans hzero
  · exact ⟨hrun, hpass⟩
  · exact ⟨hrun, hpass⟩
  · rw [animationStep_timer, animationStep_untilTick]
    exact ⟨hrun, hpass⟩
  · exact ⟨hrun, hpass⟩
  · obtain ⟨htimer, huntil⟩ := exec_keeps_running_timer (s := { passTurn s with commands := rest }) hrun h
    rw [htimer, huntil]
    exact ⟨hrun, hpass⟩

/-- After as many steps as the countdown says, the expiry is due. -/
theorem tickDue_of_run {n : Nat} {s u : State} (hrun : s.timer.isSome = true) (hn : s.untilTick = n) (h : run n s = .next u) :
    tickDue u = true := by
  induction n generalizing s with
  | zero => cases h; exact tickDue_iff.mpr ⟨hrun, hn⟩
  | succ n ih =>
    obtain ⟨t, hstep, hrest⟩ := run_succ_next h
    obtain ⟨hrun', hn'⟩ := step_counts_down hrun hn hstep
    exact ih hrun' hn' hrest

/-- A due expiry is what the next step does (R101). -/
theorem activity_of_tickDue {s : State} (h : tickDue s = true) : activity s = .timerTick := by
  rw [activity, agentTurn_multiplexer.mpr h]

/-- Settles O52, by induction on the countdown. -/
theorem scheduledTickCannotBePutOff : Obligations.ScheduledTickCannotBePutOff := fun _ _ hrun h =>
  activity_of_tickDue (tickDue_of_run hrun rfl h)

end Sys2Proof.Machine
end
